-- ==== Sys2Proof/Word.lean ====
section
/-! DEFINITION. The words of the block: bytes, 16-bit raw values, and a word of any format of
30_encoding.md together with the format it is written in. -/

namespace Sys2Proof

/-- One byte on the transport (R8). -/
abbrev Byte := BitVec 8

/-- A RawWord or a RawMeasurement, 16 bits unsigned (R25, R26). -/
abbrev RawWord := BitVec 16

/-- The formats of R55. `rstLevel` and `auxLevel` are the two level signals of format `level`. -/
inductive Format where
  | h | rstLevel | auxLevel | t | d | u | b3 | b2 | rd16 | w0 | w1 | w2 | w3
  deriving DecidableEq, Repr

/-- A word of one of the formats of R55, at that format's one fixed length. -/
inductive PortWord where
  /-- host command word `cmd[2:0]` (R56) -/
  | h (w : BitVec 3)
  /-- the reset input `rst` (R144) -/
  | rst (level : BitVec 1)
  /-- the level output `AUXEN` (R10, R75) -/
  | aux (level : BitVec 1)
  /-- transport request `treq[9:0]` (R59) -/
  | t (w : BitVec 10)
  /-- delay request `dreq[15:0]` (R60) -/
  | d (w : BitVec 16)
  /-- the control state `CUR[2:0] : UPC[5:0]` (R55) -/
  | u (w : BitVec 9)
  /-- a 3-byte pattern on the bus, first byte in bits 23:16 (R61) -/
  | b3 (w : BitVec 24)
  /-- a 2-byte pattern on the bus, first byte in bits 15:8 (R62, R63) -/
  | b2 (w : BitVec 16)
  /-- a 16-bit value read from the bus (R65) -/
  | rd16 (w : BitVec 16)
  /-- the calibration word `CAL[0]` (R66) -/
  | w0 (w : BitVec 16)
  /-- the calibration word `CAL[1]` (R67) -/
  | w1 (w : BitVec 16)
  /-- the calibration word `CAL[2]` (R68) -/
  | w2 (w : BitVec 16)
  /-- the calibration word `CAL[3]` (R69) -/
  | w3 (w : BitVec 16)
  deriving DecidableEq, Repr

/-- The format a word is written in. -/
def PortWord.format : PortWord → Format
  | .h _ => .h
  | .rst _ => .rstLevel
  | .aux _ => .auxLevel
  | .t _ => .t
  | .d _ => .d
  | .u _ => .u
  | .b3 _ => .b3
  | .b2 _ => .b2
  | .rd16 _ => .rd16
  | .w0 _ => .w0
  | .w1 _ => .w1
  | .w2 _ => .w2
  | .w3 _ => .w3

end Sys2Proof
end

