-- ==== Sys2Proof/Config.lean ====
section
/-! DEFINITION. What one instance of the block fixes: the parameters of 00_scope.md section 4 with the
defaults the spec gives, and the free values (constants without a body) the spec leaves open. -/

namespace Sys2Proof

/-- A 2-byte command pattern, in the order sent (R62, R63). -/
structure Pattern2 where
  b0 : Byte
  b1 : Byte
  deriving DecidableEq, Repr

/-- The 3-byte reset pattern, in the order sent (R61). -/
structure Pattern3 where
  b0 : Byte
  b1 : Byte
  b2 : Byte
  deriving DecidableEq, Repr

/-- MeasurementKind, "a closed variant {Temperature, Pressure}" (R40). -/
inductive Kind where
  | temperature
  | pressure
  deriving DecidableEq, Repr

/-- The bit-order setting of the transport (R15, R43). -/
inductive BitOrder where
  | msbFirst
  | lsbFirst
  deriving DecidableEq, Repr

/-- Clock polarity and phase of one transport clock mode (R13). -/
structure ClockMode where
  idleHigh : Bool
  sampleTrailing : Bool
  deriving DecidableEq, Repr

/-- `MODE_A` and `MODE_B` (R13), which differ (decision D9). -/
structure ClockModes where
  a : ClockMode
  b : ClockMode
  differ : a ≠ b
  deriving DecidableEq, Repr

/-- The width `W` of the integer registers: at least 36 bits (R14); a smaller one is no configuration
(93 U4). -/
structure RegWidth where
  bits : Nat
  enough : 36 ≤ bits
  deriving DecidableEq, Repr

/-- A ratio or a frequency, as a fraction. -/
structure Ratio where
  num : Nat
  den : Nat
  deriving DecidableEq, Repr

/-- The parameters of 00_scope.md section 4: constants of one instance, not state (R33 (a)). Every claim
about the model is for every value of them, unless it names `Params.default`. `SIGNALLING` is not here:
no rule depends on it (R7 to R10). -/
structure Params where
  /-- `RESET_SEQ[0..2]` (R11, R61) -/
  resetSeq : Pattern3
  /-- `CAL_CMD[0]` (R11, R62) -/
  calCmd0 : Pattern2
  /-- `CAL_CMD[1]` -/
  calCmd1 : Pattern2
  /-- `CAL_CMD[2]` -/
  calCmd2 : Pattern2
  /-- `CAL_CMD[3]` -/
  calCmd3 : Pattern2
  /-- `ACQ_CMD[Temperature]` (R11, R63) -/
  acqT : Pattern2
  /-- `ACQ_CMD[Pressure]` -/
  acqP : Pattern2
  /-- `DUMMY` (R16, R64) -/
  dummy : Byte
  /-- `CONV_DELAY` (R12), as wide as the delay port (R60) -/
  convDelay : BitVec 16
  /-- `TIME_UNIT` in nanoseconds (R12) -/
  timeUnitNs : Nat
  /-- `MODE_A`, `MODE_B` (R13) -/
  modes : ClockModes
  /-- `W` (R14) -/
  width : RegWidth
  /-- `BIT_ORDER` (R15) -/
  bitOrder : BitOrder
  /-- `CLK_DIV` (R15) -/
  clkDiv : Nat
  /-- `AUX_PIN` (R15) -/
  auxPin : Nat
  /-- `AUX_FREQ` in hertz (R15) -/
  auxFreq : Ratio
  /-- `AUX_DUTY` (R15) -/
  auxDuty : Ratio
  deriving DecidableEq, Repr

/-- `CAL_CMD[i]`, the pattern word index `i` selects (R39, R62). -/
def Params.calCmd (p : Params) : Fin 4 → Pattern2
  | 0 => p.calCmd0
  | 1 => p.calCmd1
  | 2 => p.calCmd2
  | 3 => p.calCmd3

/-- `ACQ_CMD[k]`, the pattern measurement kind `k` selects (R40, R63). -/
def Params.acqCmd (p : Params) : Kind → Pattern2
  | .temperature => p.acqT
  | .pressure => p.acqP

/-- The space `ROM` of R41: the fifteen pattern bytes, in the order of R11. -/
def Params.rom (p : Params) : List Byte :=
  [p.resetSeq.b0, p.resetSeq.b1, p.resetSeq.b2,
   p.calCmd0.b0, p.calCmd0.b1, p.calCmd1.b0, p.calCmd1.b1,
   p.calCmd2.b0, p.calCmd2.b1, p.calCmd3.b0, p.calCmd3.b1,
   p.acqT.b0, p.acqT.b1, p.acqP.b0, p.acqP.b1]

/-- The command patterns tell the six internal sequences apart, and no pattern byte is `DUMMY`: only then
can the bus words of R59, R62 and R63 be read back (log 9). -/
def Params.unambiguous (p : Params) : Bool :=
  decide ([p.calCmd0, p.calCmd1, p.calCmd2, p.calCmd3, p.acqT, p.acqP].Pairwise (· ≠ ·)) &&
  decide (p.dummy ∉ p.rom)

/-- The registers without a reset value (R36, R37). -/
inductive UnwrittenReg where
  | c1 | c2 | c3 | c4 | c5 | c6 | wd0 | wd1 | wd2 | wd3 | d1 | d2
  | temp | tcorr | pcomp | pcorr | res | cur | upc | hi
  deriving DecidableEq, Repr

/-- FREE VALUE (log 6). What a register that R36 leaves without a value holds after the `epoch`-th
hardware reset, at the register's width: any value, and no number the model chose (R37). -/
opaque Config.unwritten : UnwrittenReg → (epoch : Nat) → (width : Nat) → BitVec width

/-- FREE VALUE (log 3). The byte the transport returns where the state's list of answers has run out:
any value in 0..255 (R17), by the number of such bytes before it. -/
opaque Config.busByte : Nat → Byte

/-- OPEN (log 15): the clock divider `CLK_DIV` (R15). -/
opaque Config.clkDiv : Nat

/-- OPEN (log 15): the auxiliary clock pin `AUX_PIN` (R15). -/
opaque Config.auxPin : Nat

/-- OPEN (log 15): numerator and denominator of `AUX_FREQ` in hertz (R15). -/
opaque Config.auxFreq : Nat × Nat

/-- OPEN (log 15): numerator and denominator of `AUX_DUTY` (R15). -/
opaque Config.auxDuty : Nat × Nat

/-- The default parameters of the table of 00_scope.md section 4. The pattern bytes, the dummy byte, the
clock modes and the time unit are the spec's general-knowledge defaults (R11 to R16, G1 to G4;
PRESUMED, log 2 and log 15); `CONV_DELAY` = 35, `BIT_ORDER` and `W` = 64 are the spec's. -/
def Params.default : Params where
  resetSeq := ⟨0x15, 0x55, 0x40⟩
  calCmd0 := ⟨0x1D, 0x50⟩
  calCmd1 := ⟨0x1D, 0x60⟩
  calCmd2 := ⟨0x1D, 0x90⟩
  calCmd3 := ⟨0x1D, 0xA0⟩
  acqT := ⟨0x0F, 0x20⟩
  acqP := ⟨0x0F, 0x40⟩
  dummy := 0x00
  convDelay := 35
  timeUnitNs := 1000000
  modes := ⟨⟨false, false⟩, ⟨false, true⟩, by decide⟩
  width := ⟨64, by decide⟩
  bitOrder := .msbFirst
  clkDiv := Config.clkDiv
  auxPin := Config.auxPin
  auxFreq := ⟨Config.auxFreq.1, Config.auxFreq.2⟩
  auxDuty := ⟨Config.auxDuty.1, Config.auxDuty.2⟩

end Sys2Proof
end

