-- ==== Sys2Proof/Syntax.lean ====
section
/-! DEFINITION. `Instr`: one constructor per row of spec/opcode_table.json. -/

namespace Sys2Proof

/-- PressureUnit, "a closed variant {millibar, mmHg}" (R58). -/
inductive PressureUnit where
  | millibar
  | mmHg
  deriving DecidableEq, Repr

/-- The two clock modes a `MODE` request selects (R76). -/
inductive ModeSel where
  | a
  | b
  deriving DecidableEq, Repr

/-- The rows of the opcode table. The field `unit` of the host commands that ignore it (R58) and of the
control-state view `U` (R55) is kept as an operand, so that no bit of a word is dropped. -/
inductive Instr where
  /-- `INIT` (R121); `unit` = `cmd[2]`, ignored -/
  | init (unit : Bool)
  /-- `SRESET` as a host command (R122); `unit` = `cmd[2]`, ignored -/
  | sreset (unit : Bool)
  /-- `GETT` (R123); `unit` = `cmd[2]`, ignored -/
  | gett (unit : Bool)
  /-- `GETP.MBAR` (R124) -/
  | getpMbar
  /-- `GETP.MMHG` (R124) -/
  | getpMmhg
  /-- `RST`, the hardware reset event (R144) -/
  | rst
  /-- `CFG` (R74) -/
  | cfg
  /-- `MODE A` (R76) -/
  | modeA
  /-- `MODE B` (R76) -/
  | modeB
  /-- `TX b` (R77) -/
  | tx (b : Byte)
  /-- `RX` (R78, R80) -/
  | rx
  /-- `WAIT n` (R79) -/
  | wait (n : BitVec 16)
  /-- `AUXON` (R75) -/
  | auxon
  /-- `CHK` (R120); `unit` = `CUR[2]`, `k` = `CUR[0]` (false in `GETT`, true in `GETP`) -/
  | chk (unit k : Bool)
  /-- `DEC` (R88); `unit` = `CUR[2]` -/
  | dec (unit : Bool)
  /-- `CMPT` (R113); `unit` = `CUR[2]` -/
  | cmpt (unit : Bool)
  /-- `CMPP(u)` (R114); `u` from `CUR[2]` -/
  | cmpp (u : PressureUnit)
  /-- the reset pattern on the bus (R61) -/
  | sresetPattern
  /-- `RDCAL(0)` (R82) -/
  | rdcal0
  /-- `RDCAL(1)` (R82) -/
  | rdcal1
  /-- `RDCAL(2)` (R82) -/
  | rdcal2
  /-- `RDCAL(3)` (R82) -/
  | rdcal3
  /-- `ACQ(Temperature)` (R83) -/
  | acqT
  /-- `ACQ(Pressure)` (R83) -/
  | acqP
  /-- a 16-bit value read from the sensor, first byte `hi` (R65) -/
  | rd16 (hi lo : Byte)
  /-- the word `CAL[0]` as read: `C1[14:0]`, `C5[10]` (R66) -/
  | cal0 (c1 : BitVec 15) (c5hi : BitVec 1)
  /-- the word `CAL[1]` as read: `C5[9:0]`, `C6[5:0]` (R67) -/
  | cal1 (c5lo : BitVec 10) (c6 : BitVec 6)
  /-- the word `CAL[2]` as read: `C4[9:0]`, `C2[11:6]` (R68) -/
  | cal2 (c4 : BitVec 10) (c2hi : BitVec 6)
  /-- the word `CAL[3]` as read: `C3[9:0]`, `C2[5:0]` (R69) -/
  | cal3 (c3 : BitVec 10) (c2lo : BitVec 6)
  deriving DecidableEq, Repr

end Sys2Proof
end

