-- ==== Sys2Proof/Machine/State.lean ====
section
/-! DEFINITION. The state of the block (R22), its trace (R21), the inputs that reach it from outside, the
state after hardware reset (R36), and the reasons a step can stop. -/

namespace Sys2Proof.Machine

/-- The values of `LC` (R23). -/
inductive Lifecycle where
  | uninitialized
  | ready
  deriving DecidableEq, Repr

/-- The values of `RKIND` (R28). -/
inductive ResultKind where
  | none
  /-- tenths of a degree, after `GETT` -/
  | temperature
  /-- tenths of a millibar, second-order corrected, after `GETP` with unit millibar -/
  | pressureMbar
  /-- millionths of a mmHg, not second-order corrected, after `GETP` with unit mmHg -/
  | pressureMmhg
  deriving DecidableEq, Repr

/-- The values of `ERR` (R29, R129). -/
inductive ErrCode where
  | none
  | uninit
  deriving DecidableEq, Repr

/-- An event of the trace (R20). -/
inductive Event where
  | cfg
  | auxOn
  | mode (m : ModeSel)
  | xfer (out inn : Byte)
  | wait (n : BitVec 16)
  deriving DecidableEq, Repr

/-- How a collaborator takes the next port request (log 3, log 4). -/
inductive Reply where
  /-- it completes the request; `tresp` is the byte an `XFER` returns, and no data otherwise (R59, D5) -/
  | completes (tresp : Byte)
  /-- it never completes the request (R136) -/
  | never
  deriving DecidableEq, Repr

/-- What the host does next (log 5). -/
inductive HostInput where
  /-- presents a command word and keeps presenting it until it is accepted (R7, R117) -/
  | command (w : BitVec 3)
  /-- asserts the hardware reset (R144) -/
  | reset
  /-- nothing for one step -/
  | idle
  deriving DecidableEq, Repr

/-- The coefficient registers `C[1..6]` (R24), signed integers (log 7). -/
structure Coeffs where
  c1 : Int
  c2 : Int
  c3 : Int
  c4 : Int
  c5 : Int
  c6 : Int
  deriving DecidableEq, Repr

/-- The raw word holding registers `WD[0..3]` (R25). -/
structure RawWords where
  w0 : RawWord
  w1 : RawWord
  w2 : RawWord
  w3 : RawWord
  deriving DecidableEq, Repr

/-- The state of the block: the registers of R22, the trace of R21, and the model's own fields. The parameters
are no part of it (R33 (a), R52). -/
structure Block where
  /-- `LC` (R23) -/
  lc : Lifecycle
  /-- `C[1..6]` (R24) -/
  coeffs : Coeffs
  /-- `WD[0..3]` (R25) -/
  wd : RawWords
  /-- `D1`, the raw pressure (R26) -/
  d1 : RawWord
  /-- `D2`, the raw temperature (R26) -/
  d2 : RawWord
  /-- `TEMP`, tenths of a degree (R27) -/
  temp : Int
  /-- `TCORR` (R27) -/
  tcorr : Int
  /-- `PCOMP`, tenths of a millibar (R27) -/
  pcomp : Int
  /-- `PCORR` (R27) -/
  pcorr : Int
  /-- `RES` (R28) -/
  res : Int
  /-- `RKIND` (R28) -/
  rkind : ResultKind
  /-- `ERR` (R29) -/
  err : ErrCode
  /-- `AUXEN` (R30) -/
  auxen : Bool
  /-- `BUSY` (R31) -/
  busy : Bool
  /-- `CUR` (R31) -/
  cur : BitVec 3
  /-- `UPC` (R31) -/
  upc : BitVec 6
  /-- `HI` (R31) -/
  hi : Byte
  /-- the trace since hardware reset, oldest event first (R21) -/
  trace : List Event
  /-- MODEL'S OWN: what the host does next (log 5) -/
  inputs : List HostInput
  /-- MODEL'S OWN: how the next port requests are answered (log 3) -/
  replies : List Reply
  /-- MODEL'S OWN: how many answers came from `Config.busByte` (log 3) -/
  drawn : Nat
  /-- MODEL'S OWN: how many hardware resets have happened (log 6) -/
  epoch : Nat
  deriving DecidableEq, Repr

/-- What `exec` and `step` take: the state of the block together with the parameters, which R52 makes
parameters of the step function. They stand here because the host's type of `step` has no argument for them;
`stepWith` is the step function that takes them (DESIGN CHOICE, log 2). Nothing writes `par`. -/
structure State extends Block where
  /-- the parameters of this instance -/
  par : Params
  deriving DecidableEq, Repr

/-- A `W`-bit register that holds no value (R37): the free value read as a two's-complement integer. -/
def unwrittenInt (p : Params) (epoch : Nat) (r : UnwrittenReg) : Int :=
  (Config.unwritten r epoch p.width.bits).toInt

/-- The registers as the `epoch`-th hardware reset leaves them (R36), the trace empty, nothing pending
outside. A register R36 leaves without a value holds a free value (DESIGN CHOICE, log 6). -/
def State.initial (p : Params) (epoch : Nat) : State where
  lc := .uninitialized
  coeffs :=
    ⟨unwrittenInt p epoch .c1, unwrittenInt p epoch .c2, unwrittenInt p epoch .c3,
     unwrittenInt p epoch .c4, unwrittenInt p epoch .c5, unwrittenInt p epoch .c6⟩
  wd :=
    ⟨Config.unwritten .wd0 epoch 16, Config.unwritten .wd1 epoch 16,
     Config.unwritten .wd2 epoch 16, Config.unwritten .wd3 epoch 16⟩
  d1 := Config.unwritten .d1 epoch 16
  d2 := Config.unwritten .d2 epoch 16
  temp := unwrittenInt p epoch .temp
  tcorr := unwrittenInt p epoch .tcorr
  pcomp := unwrittenInt p epoch .pcomp
  pcorr := unwrittenInt p epoch .pcorr
  res := unwrittenInt p epoch .res
  rkind := .none
  err := .none
  auxen := false
  busy := false
  cur := Config.unwritten .cur epoch 3
  upc := Config.unwritten .upc epoch 6
  hi := Config.unwritten .hi epoch 8
  trace := []
  inputs := []
  replies := []
  drawn := 0
  epoch := epoch
  par := p

/-- The machine right after hardware reset (R36, R144), with the default parameters. -/
def State.reset : State := State.initial Params.default 0

/-- Why the machine stops. -/
inductive Fault where
  /-- Raised by `step` when `BUSY` = 1 and `UPC` is beyond the end of the micro-program of `CUR`: R125 has
  no micro-operation there. No run reaches such a state (R31). Safe (log 12). -/
  | noMicroOperation
  deriving DecidableEq, Repr

/-- Why an instruction has no meaning. -/
inductive Refusal where
  /-- Raised by `exec` for an instruction without a meaning yet. No arm of `exec` raises it. Safe. -/
  | notModelled (mnemonic : String)
  deriving DecidableEq, Repr

end Sys2Proof.Machine
end

