-- ==== Sys2Proof/Machine/Flags.lean ====
section
/-! DEFINITION. The block has no status flags (R32). Here stand the numeric codes of its status registers
and the one comparison a computation makes. -/

namespace Sys2Proof.Machine

/-- `LC` as the bit the host reads (R22, R23). -/
def Lifecycle.code : Lifecycle → BitVec 1
  | .uninitialized => 0
  | .ready => 1

/-- `RKIND` as the two bits the host reads (R28). -/
def ResultKind.code : ResultKind → BitVec 2
  | .none => 0
  | .temperature => 1
  | .pressureMbar => 2
  | .pressureMmhg => 3

/-- `ERR` as the bit the host reads (R29, R129). -/
def ErrCode.code : ErrCode → BitVec 1
  | .none => 0
  | .uninit => 1

/-- Which second-order correction applies (R106). -/
inductive Branch where
  | low
  | high
  | none
  deriving DecidableEq, Repr

/-- Both comparisons are strict and signed; the result is stored nowhere (R32, R106). -/
def correctionBranch (t : Int) : Branch :=
  if t < 200 then .low else if t > 450 then .high else .none

end Sys2Proof.Machine
end

