-- ==== Sys2Proof/Machine/MicroProgram.lean ====
section
/-! DEFINITION. The four micro-programs (R125), as the expansion of the command rules R121 to R124 by the
sequences R81 to R83. They are constants: no operation can write them (R52). -/

namespace Sys2Proof.Machine

/-- The field `op` = `cmd[1:0]` of a command word (R56). -/
inductive CmdOp where
  | init
  | sreset
  | gett
  | getp
  deriving DecidableEq, Repr

/-- `cmd[1:0]`: `00` INIT, `01` SRESET, `10` GETT, `11` GETP (R56). -/
def cmdOp (c : BitVec 3) : CmdOp :=
  match c.getLsbD 1, c.getLsbD 0 with
  | false, false => .init
  | false, true => .sreset
  | true, false => .gett
  | true, true => .getp

/-- `cmd[2]` (R56). -/
def cmdUnit (c : BitVec 3) : Bool := c.getLsbD 2

/-- The unit bit read as a PressureUnit: 0 millibar, 1 mmHg (R56, R58). -/
def unitOf (b : Bool) : PressureUnit := if b then .mmHg else .millibar

/-- The unit bit of a PressureUnit (R56). -/
def unitBit : PressureUnit → Bool
  | .millibar => false
  | .mmHg => true

/-- A destination of a 16-bit read: `WD[i]`, `D1` or `D2` (R80). -/
inductive RawReg where
  | wd (i : Fin 4)
  | d1
  | d2
  deriving DecidableEq, Repr

/-- `D2` for Temperature, `D1` for Pressure (R83). -/
def rawRegOf : Kind → RawReg
  | .temperature => .d2
  | .pressure => .d1

/-- One entry of a micro-program. The two `RX` entries of a 16-bit read say what becomes of the byte. -/
inductive Slot where
  | op (i : Instr)
  | rxh
  | rxl (dst : RawReg)
  deriving DecidableEq, Repr

/-- The micro-operation an entry stands for. -/
def Slot.instr : Slot → Instr
  | .op i => i
  | .rxh => .rx
  | .rxl _ => .rx

/-- `SRESET`, four micro-operations (R81). -/
def resetSlots (p : Params) : List Slot :=
  [.op .modeA, .op (.tx p.resetSeq.b0), .op (.tx p.resetSeq.b1), .op (.tx p.resetSeq.b2)]

/-- `RDCAL(i)`, five micro-operations (R82). -/
def rdcalSlots (p : Params) (i : Fin 4) : List Slot :=
  [.op (.tx (p.calCmd i).b0), .op (.tx (p.calCmd i).b1), .op .modeB, .rxh, .rxl (.wd i)]

/-- `ACQ(k)`, ten micro-operations, the first four of them a reset sequence (R83). -/
def acqSlots (p : Params) (k : Kind) : List Slot :=
  resetSlots p ++
  [.op (.tx (p.acqCmd k).b0), .op (.tx (p.acqCmd k).b1), .op (.wait p.convDelay), .op .modeB,
   .rxh, .rxl (rawRegOf k)]

/-- The micro-program of the command word `cur` (R121 to R124, R125). -/
def program (p : Params) (cur : BitVec 3) : List Slot :=
  match cmdOp cur with
  | .init =>
    [.op .cfg, .op .auxon] ++ resetSlots p ++
    resetSlots p ++ rdcalSlots p 0 ++
    resetSlots p ++ rdcalSlots p 1 ++
    resetSlots p ++ rdcalSlots p 2 ++
    resetSlots p ++ rdcalSlots p 3 ++
    [.op (.dec (cmdUnit cur))]
  | .sreset => resetSlots p
  | .gett =>
    .op (.chk (cmdUnit cur) false) :: acqSlots p .temperature ++ [.op (.cmpt (cmdUnit cur))]
  | .getp =>
    .op (.chk (cmdUnit cur) true) :: acqSlots p .pressure ++ acqSlots p .temperature ++
    [.op (.cmpp (unitOf (cmdUnit cur)))]

/-- The index of the last micro-operation of each command: 42, 3, 11, 21 (R125). -/
def lastIndex : CmdOp → Nat
  | .init => 42
  | .sreset => 3
  | .gett => 11
  | .getp => 21

/-- The entry at index `upc` of the micro-program of `cur`, if there is one (R31). -/
def slotAt (p : Params) (cur : BitVec 3) (upc : BitVec 6) : Option Slot :=
  (program p cur)[upc.toNat]?

/-- The micro-operation at index `upc` of the micro-program of `cur` (R31, R118). -/
def microOp (p : Params) (cur : BitVec 3) (upc : BitVec 6) : Option Instr :=
  (slotAt p cur upc).map Slot.instr

end Sys2Proof.Machine
end

