-- ==== Sys2Proof/Machine/Operands.lean ====
section
/-! DEFINITION. Operand forms: the 16-bit read, the raw registers, where the byte of an `RX` goes, and the
request word of every event. -/

namespace Sys2Proof.Machine

/-- Big-endian: the first byte received is the more significant (R42, R65). -/
def be16 (hi lo : Byte) : RawWord := hi ++ lo

/-- The more significant byte of a 16-bit value, received first (R65). -/
def hiByte (w : RawWord) : Byte := w.extractLsb' 8 8

/-- The less significant byte of a 16-bit value, received second (R65). -/
def loByte (w : RawWord) : Byte := w.extractLsb' 0 8

/-- `zext`: a 16-bit raw value as a non-negative integer, never negative (R19, R97 (d)). -/
def zext (w : RawWord) : Int := (w.toNat : Int)

/-- `WD[i]` (R25). -/
def RawWords.get (ws : RawWords) : Fin 4 → RawWord
  | 0 => ws.w0
  | 1 => ws.w1
  | 2 => ws.w2
  | 3 => ws.w3

/-- `WD[i] <- v` (R25). -/
def RawWords.set (ws : RawWords) (i : Fin 4) (v : RawWord) : RawWords :=
  match i with
  | 0 => { ws with w0 := v }
  | 1 => { ws with w1 := v }
  | 2 => { ws with w2 := v }
  | 3 => { ws with w3 := v }

/-- What the destination of a 16-bit read holds. -/
def State.readRaw (s : State) : RawReg → RawWord
  | .wd i => s.wd.get i
  | .d1 => s.d1
  | .d2 => s.d2

/-- `dst <- v`, all 16 bits at once (R45, R80). -/
def State.writeRaw (s : State) (dst : RawReg) (v : RawWord) : State :=
  match dst with
  | .wd i => { s with wd := s.wd.set i v }
  | .d1 => { s with d1 := v }
  | .d2 => { s with d2 := v }

/-- What becomes of the byte an `RX` returns (R78, R80). -/
inductive RxTarget where
  /-- `RXH`: it goes to `HI` -/
  | high
  /-- `RXL(dst)`: it completes `dst` -/
  | low (dst : RawReg)
  /-- the control state is at no `RX`: it goes nowhere (log 9) -/
  | nowhere
  deriving DecidableEq, Repr

/-- The role of an entry's byte, if the entry is an `RX`. -/
def Slot.rxTarget : Slot → RxTarget
  | .op _ => .nowhere
  | .rxh => .high
  | .rxl dst => .low dst

/-- The micro-operations that wait for a collaborator (R118, R136). `AUXON` drives a level and waits for nobody
(R75). -/
def isPortRequest : Instr → Bool
  | .cfg => true
  | .modeA => true
  | .modeB => true
  | .tx _ => true
  | .rx => true
  | .wait _ => true
  | _ => false

/-- The role of the `RX` at the current control state (R80, R118, R125). -/
def State.rxTarget (s : State) : RxTarget :=
  if s.busy then
    match slotAt s.par s.cur s.upc with
    | some slot => slot.rxTarget
    | none => .nowhere
  else .nowhere

/-- The effect of a received byte: `RXH: HI <- b`; `RXL(dst): dst <- HI : b` (R80). -/
def State.receive (s : State) (target : RxTarget) (b : Byte) : State :=
  match target with
  | .high => { s with hi := b }
  | .low dst => s.writeRaw dst (be16 s.hi b)
  | .nowhere => s

/-- The transport request word an event was sent as, if it was sent to the transport (R59). -/
def Event.treq : Event → Option (BitVec 10)
  | .cfg => some 0x000
  | .mode .a => some 0x100
  | .mode .b => some 0x101
  | .xfer out _ => some ((0b10 : BitVec 2) ++ out)
  | .auxOn => none
  | .wait _ => none

/-- The delay request word an event was sent as, if it was sent to the delay primitive (R60). -/
def Event.dreq : Event → Option (BitVec 16)
  | .wait n => some n
  | _ => none

/-- The settings a `CFG` request applies: bit order and clock divider (R15, R74). -/
def cfgSettings (p : Params) : BitOrder × Nat := (p.bitOrder, p.clkDiv)

/-- The clock polarity and phase a `MODE` request selects (R13, R76). -/
def modeSettings (p : Params) : ModeSel → ClockMode
  | .a => p.modes.a
  | .b => p.modes.b

/-- What the platform drives while `AUXEN` = 1: pin, frequency, duty cycle (R10, R15). -/
def auxSettings (p : Params) : Nat × Ratio × Ratio := (p.auxPin, p.auxFreq, p.auxDuty)

end Sys2Proof.Machine
end

