-- ==== Sys2Proof/Machine/Ops.lean ====
section
/-! DEFINITION. The shared operations: arithmetic shift, port requests, micro-operations and their
completion, command acceptance, the error entry, hardware reset, and what the outside sees. -/

namespace Sys2Proof.Machine

/-- `asr(v, n) = floor(v / 2^n)`, rounding toward minus infinity (R19, R97): the divisor is positive, so
the quotient of `Int` is the floor. -/
def asr (v : Int) (n : Nat) : Int := v / 2 ^ n

/-! ### Port requests -/

/-- The next port request is one a collaborator never completes (R136). -/
def State.hangs (s : State) : Bool :=
  match s.replies with
  | .never :: _ => true
  | _ => false

/-- The byte the next exchange returns: the next answer of the list, and a free byte once the list has run
out (R17, log 3). -/
def State.answer (s : State) : Byte :=
  match s.replies with
  | .completes b :: _ => b
  | _ => Config.busByte s.drawn

/-- The state after the next port request has been answered. -/
def State.answered (s : State) : State :=
  match s.replies with
  | .completes _ :: rest => { s with replies := rest }
  | .never :: _ => s
  | [] => { s with drawn := s.drawn + 1 }

/-- `emit E`: the event joins the trace (R20, R21). -/
def State.emit (s : State) (e : Event) : State := { s with trace := s.trace ++ [e] }

/-! ### Micro-operations

A micro-operation answers the state with its own register writes and event, or nothing while its port
request is not completed (R118, R136). -/

/-- A port request whose completion carries no data. -/
def request (e : Event) (s : State) : Option State :=
  if s.hangs then none else some (s.answered.emit e)

/-- `CFG` (R74). -/
def cfgOp (s : State) : Option State := request .cfg s

/-- `MODE m` (R76). -/
def modeOp (m : ModeSel) (s : State) : Option State := request (.mode m) s

/-- `WAIT n` (R79). -/
def waitOp (n : BitVec 16) (s : State) : Option State := request (.wait n) s

/-- `TX b`: an exchange whose byte is discarded (R77). -/
def txOp (b : Byte) (s : State) : Option State := request (.xfer b s.answer) s

/-- `RX`: an exchange of `DUMMY` whose byte goes to `target` (R78, R80). -/
def rxOp (target : RxTarget) (s : State) : Option State :=
  (request (.xfer s.par.dummy s.answer) s).map fun t => t.receive target s.answer

/-- `AUXON`: drives the level output; there is no request to complete (R75, R136). -/
def auxonOp (s : State) : Option State := some ({ s with auxen := true }.emit .auxOn)

/-! ### Sequencing -/

/-- The writes R121 and R122 put into a port micro-operation: index 0 of `INIT` clears `LC`, index 3 of
`SRESET` clears `ERR` (R118, R125). -/
def State.bracketWrites (s : State) : State :=
  match cmdOp s.cur, s.upc.toNat with
  | .init, 0 => { s with lc := .uninitialized }
  | .sreset, 3 => { s with err := .none }
  | _, _ => s

/-- Completion of a micro-operation: `BUSY <- 0` after the last of the micro-program, `UPC <- UPC + 1`
otherwise (R118). Outside a command there is no control state to advance (log 11). -/
def State.complete (s : State) : State :=
  if s.busy then
    if s.upc.toNat = lastIndex (cmdOp s.cur) then { s.bracketWrites with busy := false }
    else { s.bracketWrites with upc := s.upc + 1 }
  else s

/-- One micro-operation as a step: its effect and its completion, or no change while its request is
outstanding (R118, R136). -/
def State.perform (m : State → Option State) (s : State) : State :=
  match m s with
  | some t => t.complete
  | none => s

/-- Micro-operations in a row, each completing before the next (R49); the row stops where a request is not
completed (R136). -/
def State.performAll : List (State → Option State) → State → State
  | [], s => s
  | m :: rest, s =>
    match m s with
    | some t => t.complete.performAll rest
    | none => s

/-- The micro-operations of `RDCAL(i)` (R82). -/
def rdcalOps (p : Params) (i : Fin 4) : List (State → Option State) :=
  [txOp (p.calCmd i).b0, txOp (p.calCmd i).b1, modeOp .b, rxOp .high, rxOp (.low (.wd i))]

/-- The micro-operations of a reset pattern on the bus (R61). -/
def patternOps (p : Params) : List (State → Option State) :=
  [txOp p.resetSeq.b0, txOp p.resetSeq.b1, txOp p.resetSeq.b2]

/-- The micro-operations of `ACQ(k)` (R83). -/
def acqOps (p : Params) (k : Kind) : List (State → Option State) :=
  modeOp .a :: patternOps p ++
  [txOp (p.acqCmd k).b0, txOp (p.acqCmd k).b1, waitOp p.convDelay, modeOp .b,
   rxOp .high, rxOp (.low (rawRegOf k))]

/-- The two exchanges of a 16-bit read (R80). -/
def read16Ops (target : RxTarget) : List (State → Option State) := [rxOp .high, rxOp target]

/-- The sensor's next two answers are the bytes of `w`, the more significant first (R42, log 18). -/
def State.sensorAnswers (s : State) (w : RawWord) : State :=
  { s with replies := .completes (hiByte w) :: .completes (loByte w) :: s.replies }

/-- The role of the exchange after the current one: where a 16-bit read that starts here is put. -/
def State.nextRxTarget (s : State) : RxTarget := { s with upc := s.upc + 1 }.rxTarget

/-! ### Commands, the error, hardware reset -/

/-- Command acceptance: if and only if `BUSY` = 0, `CUR <- cmd; UPC <- 0; BUSY <- 1` (R117). -/
def State.accept (s : State) (cmd : BitVec 3) : State :=
  if s.busy then s else { s with cur := cmd, upc := 0, busy := true }

/-- The error entry, `raise Uninit`: `ERR <- Uninit; BUSY <- 0` and nothing else (R131). There is no
return from it: the block is idle again (R132). -/
def State.raiseUninit (s : State) : State := { s with err := .uninit, busy := false }

/-- A port request is outstanding: a command runs, the micro-operation at its control state issues a request, and
the collaborator does not complete it. DESIGN CHOICE (log 14): whether the request has been tried by a step yet
makes no difference. At an internal micro-operation and at `AUXON` no request is outstanding. -/
def State.outstanding (s : State) : Bool :=
  s.busy && s.hangs &&
  match microOp s.par s.cur s.upc with
  | some i => isPortRequest i
  | none => false

/-- The answers that stand after `RST`: a request that was outstanding is forgotten by the block (R145), and its
missing answer with it. DESIGN CHOICE (log 14): every other answer stays, also a `never` at the head while no
request is outstanding, which is then how a later request is taken. -/
def State.repliesAfterReset (s : State) : List Reply :=
  if s.outstanding then s.replies.tail else s.replies

/-- `RST`: every register takes its reset value and the trace starts again empty; the parameters and the
outside are not touched (R144, R145, R146). -/
def State.hardwareReset (s : State) : State :=
  { State.initial s.par (s.epoch + 1) with
    inputs := s.inputs, replies := s.repliesAfterReset, drawn := s.drawn }

/-! ### What the outside sees -/

/-- The registers the host can read by name (R7, column Host of R22). -/
structure HostView where
  lc : BitVec 1
  coeffs : Coeffs
  temp : Int
  tcorr : Int
  pcomp : Int
  pcorr : Int
  res : Int
  rkind : BitVec 2
  err : BitVec 1
  auxen : Bool
  busy : Bool
  deriving DecidableEq, Repr

/-- What the host reads, at any time (R7, R22). -/
def State.hostView (s : State) : HostView where
  lc := s.lc.code
  coeffs := s.coeffs
  temp := s.temp
  tcorr := s.tcorr
  pcomp := s.pcomp
  pcorr := s.pcorr
  res := s.res
  rkind := s.rkind.code
  err := s.err.code
  auxen := s.auxen
  busy := s.busy

/-- What tells two runs apart: the trace and the output registers (R21). -/
def State.observe (s : State) : List Event × HostView := (s.trace, s.hostView)

end Sys2Proof.Machine
end

