-- ==== Sys2Proof/Machine/CalibrationDecoder.lean ====
section
/-! DEFINITION. The Calibration Decoder (41_calibration_decoder.md): the six extractions and `DEC`. The
shifts on 16-bit words are logical (R18), and no result needs more than 15 bits, so none is lost. -/

namespace Sys2Proof.Machine

/-- `C1 = (word0 >> 1) & 0x7FFF` (R89). -/
def f1 (w0 : RawWord) : RawWord := (w0 >>> 1) &&& 0x7FFF

/-- `C2 = ((word2 & 0x3F) << 6) | (word3 & 0x3F)` (R90). -/
def f2 (w2 w3 : RawWord) : RawWord := ((w2 &&& 0x3F) <<< 6) ||| (w3 &&& 0x3F)

/-- `C3 = (word3 >> 6) & 0x3FF` (R91). -/
def f3 (w3 : RawWord) : RawWord := (w3 >>> 6) &&& 0x3FF

/-- `C4 = (word2 >> 6) & 0x3FF` (R92). -/
def f4 (w2 : RawWord) : RawWord := (w2 >>> 6) &&& 0x3FF

/-- `C5 = ((word0 & 0x1) << 10) | ((word1 >> 6) & 0x3FF)` (R93). -/
def f5 (w0 w1 : RawWord) : RawWord := ((w0 &&& 0x1) <<< 10) ||| ((w1 >>> 6) &&& 0x3FF)

/-- `C6 = word1 & 0x3F` (R94). -/
def f6 (w1 : RawWord) : RawWord := w1 &&& 0x3F

/-- The decoder: a pure function of the four words (R88, R95). -/
def decodeWords (w : RawWords) : Coeffs where
  c1 := zext (f1 w.w0)
  c2 := zext (f2 w.w2 w.w3)
  c3 := zext (f3 w.w3)
  c4 := zext (f4 w.w2)
  c5 := zext (f5 w.w0 w.w1)
  c6 := zext (f6 w.w1)

/-- `DEC`: all six coefficients at once, and in the same micro-operation `LC <- Ready` and `ERR <- None`
(R88, R121). -/
def execDec (_unit : Bool) (s : State) : Host.Outcome State Fault Refusal :=
  .next { s with coeffs := decodeWords s.wd, lc := .ready, err := .none }.complete

end Sys2Proof.Machine
end

