-- ==== Sys2Proof/Machine/Compensation.lean ====
section
/-! DEFINITION. The Compensation Engine (42_compensation_engine.md), over the mathematical integers and
with the bracketing of the formulas (R97). -/

namespace Sys2Proof.Machine

/-- `UT1 = (C5 << 3) + 20224` (R99). -/
def ut1 (c : Coeffs) : Int := 8 * c.c5 + 20224

/-- `dT = zext(D2) - UT1` (R100). -/
def deltaT (c : Coeffs) (d2 : RawWord) : Int := zext d2 - ut1 c

/-- `TEMP = 200 + asr(dT * (C6 + 50), 10)` (R101). -/
def temperature (c : Coeffs) (dT : Int) : Int := 200 + asr (dT * (c.c6 + 50)) 10

/-- `OFF = C2 * 4 + asr((C4 - 512) * dT, 12)` (R102). -/
def offset (c : Coeffs) (dT : Int) : Int := c.c2 * 4 + asr ((c.c4 - 512) * dT) 12

/-- `SENS = C1 + asr(C3 * dT, 10) + 24576` (R103). -/
def sensitivity (c : Coeffs) (dT : Int) : Int := c.c1 + asr (c.c3 * dT) 10 + 24576

/-- `X = asr(SENS * (zext(D1) - 7168), 14) - OFF` (R104). -/
def xValue (sens off : Int) (d1 : RawWord) : Int := asr (sens * (zext d1 - 7168)) 14 - off

/-- `PCOMP = asr(X * 10, 5) + 2500` (R105). -/
def pressureOf (x : Int) : Int := asr (x * 10) 5 + 2500

/-- The first-order pressure from the coefficients and the raw values (R102 to R105). -/
def firstOrderPressure (c : Coeffs) (dT : Int) (d1 : RawWord) : Int :=
  pressureOf (xValue (sensitivity c dT) (offset c dT) d1)

/-- `T2`, by branch (R107, R108, R109); `^2` is squaring (R97). -/
def t2 (c : Coeffs) (t : Int) : Int :=
  match correctionBranch t with
  | .low => asr (11 * (c.c6 + 24) * (200 - t) ^ 2) 20
  | .high => asr (3 * (c.c6 + 24) * (450 - t) ^ 2) 20
  | .none => 0

/-- `P2`, by branch (R107, R108, R109). -/
def p2 (c : Coeffs) (t p : Int) : Int :=
  match correctionBranch t with
  | .low => asr (3 * t2 c t * (p - 3500)) 14
  | .high => asr (t2 c t * (p - 10000)) 13
  | .none => 0

/-- `PMMHG = PCOMP * 75006`, millionths of a mmHg, exactly (R111). -/
def millionthsMmhg (p : Int) : Int := p * 75006

/-- `CMPT` (R113). -/
def execCmpt (_unit : Bool) (s : State) : Host.Outcome State Fault Refusal :=
  let t := temperature s.coeffs (deltaT s.coeffs s.d2)
  .next { s with temp := t, res := t, rkind := .temperature, err := .none }.complete

/-- `CMPP(u)` (R114): the four output registers do not depend on `u`, which selects `RES` and `RKIND`. -/
def execCmpp (u : PressureUnit) (s : State) : Host.Outcome State Fault Refusal :=
  let dT := deltaT s.coeffs s.d2
  let t := temperature s.coeffs dT
  let p := firstOrderPressure s.coeffs dT s.d1
  let corrected := p - p2 s.coeffs t p
  let out : Int × ResultKind :=
    match u with
    | .millibar => (corrected, .pressureMbar)
    | .mmHg => (millionthsMmhg p, .pressureMmhg)
  .next { s with
    temp := t, tcorr := t - t2 s.coeffs t, pcomp := p, pcorr := corrected,
    res := out.1, rkind := out.2, err := .none }.complete

end Sys2Proof.Machine
end

