-- ==== Sys2Proof/WellFormed.lean ====
section
/-! DEFINITION. Which instructions an instance with given parameters can issue. The selectors are closed
variants (R44, R135), so only the two operands that come from parameters need a check. -/

namespace Sys2Proof

/-- The operand of `TX` is "one byte taken from the pattern ROM" (R77), and the operand of `WAIT` is
"always `CONV_DELAY`" (R79). Every other operand is legal at every value (R71). -/
def Instr.wellFormed (p : Params) : Instr → Bool
  | .init _ => true
  | .sreset _ => true
  | .gett _ => true
  | .getpMbar => true
  | .getpMmhg => true
  | .rst => true
  | .cfg => true
  | .modeA => true
  | .modeB => true
  | .tx b => decide (b ∈ p.rom)
  | .rx => true
  | .wait n => decide (n = p.convDelay)
  | .auxon => true
  | .chk _ _ => true
  | .dec _ => true
  | .cmpt _ => true
  | .cmpp _ => true
  | .sresetPattern => true
  | .rdcal0 => true
  | .rdcal1 => true
  | .rdcal2 => true
  | .rdcal3 => true
  | .acqT => true
  | .acqP => true
  | .rd16 _ _ => true
  | .cal0 _ _ => true
  | .cal1 _ _ => true
  | .cal2 _ _ => true
  | .cal3 _ _ => true

end Sys2Proof
end

