-- ==== Sys2Proof/Decode.lean ====
section
/-! DEFINITION. Decoding and encoding of every format of 30_encoding.md. -/

namespace Sys2Proof

open Sys2Proof.Machine (cmdOp cmdUnit unitOf unitBit microOp)

/-- Why a word stands for no instruction. -/
inductive DecodeError where
  /-- `t_op` = `11`, never sent (R59, R71) -/
  | transportOpNeverSent
  /-- `CFG` with a `t_data` other than `0x00` (R59) -/
  | cfgDataNotZero
  /-- `MODE` with a `t_data` other than `0x00` and `0x01` (R59) -/
  | modeDataUnknown
  /-- a delay count other than `CONV_DELAY` (R60) -/
  | delayCountNeverSent
  /-- a control state beyond the end of its micro-program (R31, R125) -/
  | noMicroOperation
  /-- a bus pattern that is none of the parameters' (R61 to R63) -/
  | patternUnknown
  /-- a level signal that is not asserted -/
  | levelNotAsserted
  deriving DecidableEq, Repr

/-- Format `H` (R56, R57): all eight words are commands (R71). -/
def decodeH (w : BitVec 3) : Instr :=
  match cmdOp w with
  | .init => .init (cmdUnit w)
  | .sreset => .sreset (cmdUnit w)
  | .gett => .gett (cmdUnit w)
  | .getp => if cmdUnit w then .getpMmhg else .getpMbar

/-- `XFER`: with `t_data` = `DUMMY` it reads, otherwise it writes (R59, R77, R78; log 9). -/
def decodeXfer (p : Params) (b : Byte) : Instr := if b = p.dummy then .rx else .tx b

/-- Format `T` (R59). -/
def decodeT (p : Params) (w : BitVec 10) : Except DecodeError Instr :=
  let data : Byte := w.extractLsb' 0 8
  match w.getLsbD 9, w.getLsbD 8 with
  | false, false => if data = 0 then .ok .cfg else .error .cfgDataNotZero
  | false, true =>
    if data = 0 then .ok .modeA else if data = 1 then .ok .modeB else .error .modeDataUnknown
  | true, false => .ok (decodeXfer p data)
  | true, true => .error .transportOpNeverSent

/-- Format `D` (R60). -/
def decodeD (p : Params) (w : BitVec 16) : Except DecodeError Instr :=
  if w = p.convDelay then .ok (.wait w) else .error .delayCountNeverSent

/-- Format `U`: the control state `CUR[2:0] : UPC[5:0]` selects a micro-operation (R55, R125). -/
def decodeU (p : Params) (w : BitVec 9) : Except DecodeError Instr :=
  match microOp p (w.extractLsb' 6 3) (w.extractLsb' 0 6) with
  | some i => .ok i
  | none => .error .noMicroOperation

/-- The bytes of a 2-byte pattern as one word, first byte on top (R62). -/
def Pattern2.word (c : Pattern2) : BitVec 16 := c.b0 ++ c.b1

/-- The bytes of the reset pattern as one word, first byte on top (R61). -/
def Pattern3.word (c : Pattern3) : BitVec 24 := c.b0 ++ c.b1 ++ c.b2

/-- Format `B3` (R61). -/
def decodeB3 (p : Params) (w : BitVec 24) : Except DecodeError Instr :=
  if w = p.resetSeq.word then .ok .sresetPattern else .error .patternUnknown

/-- Format `B2` (R62, R63). -/
def decodeB2 (p : Params) (w : BitVec 16) : Except DecodeError Instr :=
  if w = p.calCmd0.word then .ok .rdcal0
  else if w = p.calCmd1.word then .ok .rdcal1
  else if w = p.calCmd2.word then .ok .rdcal2
  else if w = p.calCmd3.word then .ok .rdcal3
  else if w = p.acqT.word then .ok .acqT
  else if w = p.acqP.word then .ok .acqP
  else .error .patternUnknown

/-- The decoder: total on every word of every format, rejecting by name. -/
def decode (p : Params) : PortWord → Except DecodeError Instr
  | .h w => .ok (decodeH w)
  | .rst w => if w = 1 then .ok .rst else .error .levelNotAsserted
  | .aux w => if w = 1 then .ok .auxon else .error .levelNotAsserted
  | .t w => decodeT p w
  | .d w => decodeD p w
  | .u w => decodeU p w
  | .b3 w => decodeB3 p w
  | .b2 w => decodeB2 p w
  | .rd16 w => .ok (.rd16 (w.extractLsb' 8 8) (w.extractLsb' 0 8))
  | .w0 w => .ok (.cal0 (w.extractLsb' 1 15) (w.extractLsb' 0 1))
  | .w1 w => .ok (.cal1 (w.extractLsb' 6 10) (w.extractLsb' 0 6))
  | .w2 w => .ok (.cal2 (w.extractLsb' 6 10) (w.extractLsb' 0 6))
  | .w3 w => .ok (.cal3 (w.extractLsb' 6 10) (w.extractLsb' 0 6))

/-- One bit. -/
def bit (b : Bool) : BitVec 1 := BitVec.ofBool b

/-- The control-state word `CUR[2:0] : UPC[5:0]` (R55). -/
def controlWord (cur : BitVec 3) (upc : BitVec 6) : BitVec 9 := cur ++ upc

/-- A transport request `t_op : t_data` (R59). -/
def transportWord (tOp : BitVec 2) (tData : Byte) : BitVec 10 := tOp ++ tData

/-- The encoder: the word of every instruction, from the tables of 30_encoding.md. -/
def encode (p : Params) : Instr → PortWord
  | .init unit => .h (bit unit ++ (0b00 : BitVec 2))
  | .sreset unit => .h (bit unit ++ (0b01 : BitVec 2))
  | .gett unit => .h (bit unit ++ (0b10 : BitVec 2))
  | .getpMbar => .h 0b011
  | .getpMmhg => .h 0b111
  | .rst => .rst 1
  | .cfg => .t (transportWord 0b00 0x00)
  | .modeA => .t (transportWord 0b01 0x00)
  | .modeB => .t (transportWord 0b01 0x01)
  | .tx b => .t (transportWord 0b10 b)
  | .rx => .t (transportWord 0b10 p.dummy)
  | .wait n => .d n
  | .auxon => .aux 1
  | .chk unit k => .u (controlWord (bit unit ++ (0b1 : BitVec 1) ++ bit k) 0)
  | .dec unit => .u (controlWord (bit unit ++ (0b00 : BitVec 2)) 42)
  | .cmpt unit => .u (controlWord (bit unit ++ (0b10 : BitVec 2)) 11)
  | .cmpp u => .u (controlWord (bit (unitBit u) ++ (0b11 : BitVec 2)) 21)
  | .sresetPattern => .b3 p.resetSeq.word
  | .rdcal0 => .b2 p.calCmd0.word
  | .rdcal1 => .b2 p.calCmd1.word
  | .rdcal2 => .b2 p.calCmd2.word
  | .rdcal3 => .b2 p.calCmd3.word
  | .acqT => .b2 p.acqT.word
  | .acqP => .b2 p.acqP.word
  | .rd16 hi lo => .rd16 (hi ++ lo)
  | .cal0 c1 c5hi => .w0 (c1 ++ c5hi)
  | .cal1 c5lo c6 => .w1 (c5lo ++ c6)
  | .cal2 c4 c2hi => .w2 (c4 ++ c2hi)
  | .cal3 c3 c2lo => .w3 (c3 ++ c2lo)

/-- The instruction, or nothing where the decoder refuses. -/
def decode? (p : Params) (w : PortWord) : Option Instr :=
  match decode p w with
  | .ok i => some i
  | .error _ => none

/-- A bare number of the opcode table as a word of one of the formats of its width, under the default
parameters (log 10). Several formats share a width in whole bytes; a number is tried as each of them in
turn, as a 16-bit one as `T`, `D`, `U`, `B2`. -/
def decodeTableWord (nbits w : Nat) : Option Instr :=
  let p := Params.default
  match nbits with
  | 1 => if w < 2 then decode? p (.rst (BitVec.ofNat 1 w)) else none
  | 3 => if w < 8 then decode? p (.h (BitVec.ofNat 3 w)) else none
  | 8 => if w < 8 then decode? p (.h (BitVec.ofNat 3 w)) else none
  | 9 => if w < 512 then decode? p (.u (BitVec.ofNat 9 w)) else none
  | 10 => if w < 1024 then decode? p (.t (BitVec.ofNat 10 w)) else none
  | 16 =>
    let asT := if w < 1024 then decode? p (.t (BitVec.ofNat 10 w)) else none
    let asD := if w < 65536 then decode? p (.d (BitVec.ofNat 16 w)) else none
    let asU := if w < 512 then decode? p (.u (BitVec.ofNat 9 w)) else none
    let asB2 := if w < 65536 then decode? p (.b2 (BitVec.ofNat 16 w)) else none
    asT <|> asD <|> asU <|> asB2
  | 24 => if w < 16777216 then decode? p (.b3 (BitVec.ofNat 24 w)) else none
  | _ => none

end Sys2Proof
end

