-- ==== Sys2Proof/Machine/Lifecycle.lean ====
section
/-! DEFINITION. The host commands, the hardware reset and the lifecycle check (43_lifecycle_commands.md,
70_reset_and_hazards.md). Presenting a command word starts its micro-program (R117); the micro-operations
that follow are steps of their own (R118), found in `program` (R125). -/

namespace Sys2Proof.Machine

/-- A command word at the host port: accepted if and only if `BUSY` = 0 (R117). -/
def present (cmd : BitVec 3) (s : State) : Host.Outcome State Fault Refusal := .next (s.accept cmd)

/-- `INIT`, command word `u00` (R57, R121). -/
def execInit (unit : Bool) (s : State) : Host.Outcome State Fault Refusal :=
  present (bit unit ++ (0b00 : BitVec 2)) s

/-- `SRESET`, command word `u01` (R57, R122). -/
def execSreset (unit : Bool) (s : State) : Host.Outcome State Fault Refusal :=
  present (bit unit ++ (0b01 : BitVec 2)) s

/-- `GETT`, command word `u10` (R57, R123). -/
def execGett (unit : Bool) (s : State) : Host.Outcome State Fault Refusal :=
  present (bit unit ++ (0b10 : BitVec 2)) s

/-- `GETP.MBAR`, command word `011` (R57, R124). -/
def execGetpMbar (s : State) : Host.Outcome State Fault Refusal := present 0b011 s

/-- `GETP.MMHG`, command word `111` (R57, R124). -/
def execGetpMmhg (s : State) : Host.Outcome State Fault Refusal := present 0b111 s

/-- `RST`, at any time (R144, R145). -/
def execRst (s : State) : Host.Outcome State Fault Refusal := .next s.hardwareReset

/-- `CHK`: raises `Uninit` in `Uninitialized`, and goes on otherwise (R120). Its two operands are bits of
the control state it stands at, which it does not use. -/
def execChk (_unit _k : Bool) (s : State) : Host.Outcome State Fault Refusal :=
  match s.lc with
  | .uninitialized => .next s.raiseUninit
  | .ready => .next s.complete

end Sys2Proof.Machine
end

