-- ==== Sys2Proof/Machine/Sequences.lean ====
section
/-! DEFINITION. The internal sequences and the words read from the sensor, each as the row of its
micro-operations (40_protocol_sequencer.md section 2, 30_encoding.md sections 4 and 5; log 8, log 18). -/

namespace Sys2Proof.Machine

/-- The reset pattern: `TX RESET_SEQ[0]`, `[1]`, `[2]` (R61). -/
def execSresetPattern (s : State) : Host.Outcome State Fault Refusal :=
  .next (s.performAll (patternOps s.par))

/-- `RDCAL(0)` (R82). -/
def execRdcal0 (s : State) : Host.Outcome State Fault Refusal := .next (s.performAll (rdcalOps s.par 0))

/-- `RDCAL(1)` (R82). -/
def execRdcal1 (s : State) : Host.Outcome State Fault Refusal := .next (s.performAll (rdcalOps s.par 1))

/-- `RDCAL(2)` (R82). -/
def execRdcal2 (s : State) : Host.Outcome State Fault Refusal := .next (s.performAll (rdcalOps s.par 2))

/-- `RDCAL(3)` (R82). -/
def execRdcal3 (s : State) : Host.Outcome State Fault Refusal := .next (s.performAll (rdcalOps s.par 3))

/-- `ACQ(Temperature)` (R83). -/
def execAcqT (s : State) : Host.Outcome State Fault Refusal :=
  .next (s.performAll (acqOps s.par .temperature))

/-- `ACQ(Pressure)` (R83). -/
def execAcqP (s : State) : Host.Outcome State Fault Refusal :=
  .next (s.performAll (acqOps s.par .pressure))

/-- A 16-bit word arrives from the sensor: the two exchanges of R80, answered with its bytes. -/
def readWord (w : RawWord) (target : RxTarget) (s : State) : Host.Outcome State Fault Refusal :=
  .next ((s.sensorAnswers w).performAll (read16Ops target))

/-- A 16-bit value, first byte `hi` (R65, R80), put where the control state says. -/
def execRd16 (hi lo : Byte) (s : State) : Host.Outcome State Fault Refusal :=
  readWord (be16 hi lo) s.nextRxTarget s

/-- The word `CAL[0]` (R66), read into `WD[0]`. -/
def execCal0 (c1 : BitVec 15) (c5hi : BitVec 1) (s : State) : Host.Outcome State Fault Refusal :=
  readWord (c1 ++ c5hi) (.low (.wd 0)) s

/-- The word `CAL[1]` (R67), read into `WD[1]`. -/
def execCal1 (c5lo : BitVec 10) (c6 : BitVec 6) (s : State) : Host.Outcome State Fault Refusal :=
  readWord (c5lo ++ c6) (.low (.wd 1)) s

/-- The word `CAL[2]` (R68), read into `WD[2]`. -/
def execCal2 (c4 : BitVec 10) (c2hi : BitVec 6) (s : State) : Host.Outcome State Fault Refusal :=
  readWord (c4 ++ c2hi) (.low (.wd 2)) s

/-- The word `CAL[3]` (R69), read into `WD[3]`. -/
def execCal3 (c3 : BitVec 10) (c2lo : BitVec 6) (s : State) : Host.Outcome State Fault Refusal :=
  readWord (c3 ++ c2lo) (.low (.wd 3)) s

end Sys2Proof.Machine
end

