-- ==== Sys2Proof/Machine/Transport.lean ====
section
/-! DEFINITION. The micro-operations that touch a port (40_protocol_sequencer.md section 1). -/

namespace Sys2Proof.Machine

/-- `CFG` (R74). -/
def execCfg (s : State) : Host.Outcome State Fault Refusal := .next (s.perform cfgOp)

/-- `MODE A` (R76). -/
def execModeA (s : State) : Host.Outcome State Fault Refusal := .next (s.perform (modeOp .a))

/-- `MODE B` (R76). -/
def execModeB (s : State) : Host.Outcome State Fault Refusal := .next (s.perform (modeOp .b))

/-- `TX b` (R77). -/
def execTx (b : Byte) (s : State) : Host.Outcome State Fault Refusal := .next (s.perform (txOp b))

/-- `RX`, as `RXH` or `RXL(dst)` by the control state it stands at (R78, R80; log 9). -/
def execRx (s : State) : Host.Outcome State Fault Refusal := .next (s.perform (rxOp s.rxTarget))

/-- `WAIT n` (R79). -/
def execWait (n : BitVec 16) (s : State) : Host.Outcome State Fault Refusal :=
  .next (s.perform (waitOp n))

/-- `AUXON` (R75). -/
def execAuxon (s : State) : Host.Outcome State Fault Refusal := .next (s.perform auxonOp)

end Sys2Proof.Machine
end

