-- ==== Sys2Proof/Machine/Dispatch.lean ====
section
/-! DEFINITION. The meaning of every instruction, one arm per constructor of `Instr`. -/

namespace Sys2Proof.Machine

def exec (i : Instr) (s : State) : Host.Outcome State Fault Refusal :=
  match i with
  | .init unit => Sys2Proof.Machine.execInit unit s
  | .sreset unit => Sys2Proof.Machine.execSreset unit s
  | .gett unit => Sys2Proof.Machine.execGett unit s
  | .getpMbar => Sys2Proof.Machine.execGetpMbar s
  | .getpMmhg => Sys2Proof.Machine.execGetpMmhg s
  | .rst => Sys2Proof.Machine.execRst s
  | .cfg => Sys2Proof.Machine.execCfg s
  | .modeA => Sys2Proof.Machine.execModeA s
  | .modeB => Sys2Proof.Machine.execModeB s
  | .tx b => Sys2Proof.Machine.execTx b s
  | .rx => Sys2Proof.Machine.execRx s
  | .wait n => Sys2Proof.Machine.execWait n s
  | .auxon => Sys2Proof.Machine.execAuxon s
  | .chk unit k => Sys2Proof.Machine.execChk unit k s
  | .dec unit => Sys2Proof.Machine.execDec unit s
  | .cmpt unit => Sys2Proof.Machine.execCmpt unit s
  | .cmpp u => Sys2Proof.Machine.execCmpp u s
  | .sresetPattern => Sys2Proof.Machine.execSresetPattern s
  | .rdcal0 => Sys2Proof.Machine.execRdcal0 s
  | .rdcal1 => Sys2Proof.Machine.execRdcal1 s
  | .rdcal2 => Sys2Proof.Machine.execRdcal2 s
  | .rdcal3 => Sys2Proof.Machine.execRdcal3 s
  | .acqT => Sys2Proof.Machine.execAcqT s
  | .acqP => Sys2Proof.Machine.execAcqP s
  | .rd16 hi lo => Sys2Proof.Machine.execRd16 hi lo s
  | .cal0 a b => Sys2Proof.Machine.execCal0 a b s
  | .cal1 a b => Sys2Proof.Machine.execCal1 a b s
  | .cal2 a b => Sys2Proof.Machine.execCal2 a b s
  | .cal3 a b => Sys2Proof.Machine.execCal3 a b s

end Sys2Proof.Machine
end

