-- ==== Sys2Proof/Machine/Fetch.lean ====
section
/-! DEFINITION. Which word the block acts on next: a hardware reset before everything else (R133, R144), then
the control state while a command runs (R118), then a command word the host presents (R117). -/

namespace Sys2Proof.Machine

/-- The word the next step acts on; nothing if the block is idle and the host presents nothing (R119). -/
def State.fetchWord (s : State) : Option PortWord :=
  match s.inputs with
  | .reset :: _ => some (.rst 1)
  | .command w :: _ => if s.busy then some (.u (controlWord s.cur s.upc)) else some (.h w)
  | _ => if s.busy then some (.u (controlWord s.cur s.upc)) else none

/-- The host's input after this step: a command presented while `BUSY` = 1 is not accepted and stays
presented (R117), anything else is over (log 5). -/
def State.consumeInput (s : State) : State :=
  match s.inputs with
  | .command _ :: rest => if s.busy then s else { s with inputs := rest }
  | _ :: rest => { s with inputs := rest }
  | [] => s

/-- The block at index `upc` of the micro-program of `cur`, with nothing presented at the host port for this
step. -/
def State.atPosition (s : State) (cur : BitVec 3) (upc : BitVec 6) : State :=
  { s with busy := true, cur := cur, upc := upc, inputs := .idle :: s.inputs }

/-- Where in the micro-programs each byte of the pattern ROM is sent (R125). -/
def romPlaces (p : Params) : List (Byte × BitVec 3 × BitVec 6) :=
  [(p.resetSeq.b0, 0b001, 1), (p.resetSeq.b1, 0b001, 2), (p.resetSeq.b2, 0b001, 3),
   (p.calCmd0.b0, 0b000, 10), (p.calCmd0.b1, 0b000, 11), (p.calCmd1.b0, 0b000, 19), (p.calCmd1.b1, 0b000, 20),
   (p.calCmd2.b0, 0b000, 28), (p.calCmd2.b1, 0b000, 29), (p.calCmd3.b0, 0b000, 37), (p.calCmd3.b1, 0b000, 38),
   (p.acqT.b0, 0b010, 5), (p.acqT.b1, 0b010, 6), (p.acqP.b0, 0b011, 5), (p.acqP.b1, 0b011, 6)]

/-- The state whose very next step starts `i` (log 13). A command word is presented to the idle block; a
micro-operation is reached by its place in a micro-program (R125); a byte that is not in the pattern ROM and a
count that is not `CONV_DELAY` have no place, since nothing changes the parameters (R52), and leave the state as
it is. A word from the sensor is what the transport answers next. -/
def State.place (s : State) : Instr → State
  | .init unit => { s with busy := false, inputs := .command (bit unit ++ (0b00 : BitVec 2)) :: s.inputs }
  | .sreset unit => { s with busy := false, inputs := .command (bit unit ++ (0b01 : BitVec 2)) :: s.inputs }
  | .gett unit => { s with busy := false, inputs := .command (bit unit ++ (0b10 : BitVec 2)) :: s.inputs }
  | .getpMbar => { s with busy := false, inputs := .command 0b011 :: s.inputs }
  | .getpMmhg => { s with busy := false, inputs := .command 0b111 :: s.inputs }
  | .rst => { s with inputs := .reset :: s.inputs }
  | .cfg => s.atPosition 0b000 0
  | .modeA => s.atPosition 0b001 0
  | .modeB => s.atPosition 0b000 12
  | .tx b =>
    match (romPlaces s.par).find? fun place => place.1 = b with
    | some (_, cur, upc) => s.atPosition cur upc
    | none => s
  | .rx => s.atPosition 0b000 13
  | .wait n => if n = s.par.convDelay then s.atPosition 0b010 7 else s
  | .auxon => s.atPosition 0b000 1
  | .chk unit k => s.atPosition (bit unit ++ (0b1 : BitVec 1) ++ bit k) 0
  | .dec unit => s.atPosition (bit unit ++ (0b00 : BitVec 2)) 42
  | .cmpt unit => s.atPosition (bit unit ++ (0b10 : BitVec 2)) 11
  | .cmpp u => s.atPosition (bit (unitBit u) ++ (0b11 : BitVec 2)) 21
  | .sresetPattern => s.atPosition 0b001 1
  | .rdcal0 => s.atPosition 0b000 10
  | .rdcal1 => s.atPosition 0b000 19
  | .rdcal2 => s.atPosition 0b000 28
  | .rdcal3 => s.atPosition 0b000 37
  | .acqT => s.atPosition 0b010 1
  | .acqP => s.atPosition 0b011 1
  | .rd16 hi lo => (s.sensorAnswers (be16 hi lo)).atPosition 0b010 9
  | .cal0 c1 c5hi => (s.sensorAnswers (c1 ++ c5hi)).atPosition 0b000 13
  | .cal1 c5lo c6 => (s.sensorAnswers (c5lo ++ c6)).atPosition 0b000 22
  | .cal2 c4 c2hi => (s.sensorAnswers (c4 ++ c2hi)).atPosition 0b000 31
  | .cal3 c3 c2lo => (s.sensorAnswers (c3 ++ c2lo)).atPosition 0b000 40

/-- How many steps an instruction takes from the state `State.place` makes: the sequences and the words read
are rows of micro-operations, one a step (R61, R80, R82, R83; log 8). -/
def stepsOf : Instr → Nat
  | .sresetPattern => 3
  | .rdcal0 => 5
  | .rdcal1 => 5
  | .rdcal2 => 5
  | .rdcal3 => 5
  | .acqT => 10
  | .acqP => 10
  | .rd16 _ _ => 2
  | .cal0 _ _ => 2
  | .cal1 _ _ => 2
  | .cal2 _ _ => 2
  | .cal3 _ _ => 2
  | _ => 1

end Sys2Proof.Machine
end

