-- ==== Sys2Proof/Machine/Step.lean ====
section
/-! DEFINITION. One step of the block (R118, R117, R133; log 1). -/

namespace Sys2Proof.Machine

/-- One step: the fetched word is decoded and executed; with nothing to act on the block stays idle, all
state kept (R119, R143). -/
def step (s : State) : Host.Outcome State Fault Refusal :=
  match s.fetchWord with
  | none => .next s.consumeInput
  | some w =>
    match decode s.par w with
    | .ok i => exec i s.consumeInput
    | .error _ => .fault .noMicroOperation

/-- The step function of the block with the parameters as its argument, on a state that does not hold them (R52). -/
def stepWith (p : Params) (b : Block) : Host.Outcome Block Fault Refusal :=
  match step { b with par := p } with
  | .next t => .next t.toBlock
  | .fault r => .fault r
  | .refused r => .refused r

/-- The state whose very next step runs the opcode-table word `w` (log 13). -/
def State.withFetchWord (s : State) (nbits w : Nat) : State :=
  match decodeTableWord nbits w with
  | some i => s.place i
  | none => s

end Sys2Proof.Machine
end

