-- ==== Sys2Proof/Safety.lean ====
section
/-! DEFINITION. What counts as a safe state and a safe run, in the terms the statements use. -/

namespace Sys2Proof

open Sys2Proof.Machine

/-- The ranges the packing gives the six coefficients (R24). -/
def Machine.Coeffs.inRange (c : Coeffs) : Prop :=
  (0 ≤ c.c1 ∧ c.c1 ≤ 32767) ∧ (0 ≤ c.c2 ∧ c.c2 ≤ 4095) ∧ (0 ≤ c.c3 ∧ c.c3 ≤ 1023) ∧
  (0 ≤ c.c4 ∧ c.c4 ≤ 1023) ∧ (0 ≤ c.c5 ∧ c.c5 ≤ 2047) ∧ (0 ≤ c.c6 ∧ c.c6 ≤ 63)

/-- An integer that a two's-complement register of `w` bits holds (R14, R19). -/
def fitsIn (w : Nat) (v : Int) : Prop := -(2 : Int) ^ (w - 1) ≤ v ∧ v < (2 : Int) ^ (w - 1)

/-- Every `W`-bit register holds an integer of `W` bits (R22). -/
def registersFit (s : State) : Prop :=
  fitsIn s.par.width.bits s.coeffs.c1 ∧ fitsIn s.par.width.bits s.coeffs.c2 ∧
  fitsIn s.par.width.bits s.coeffs.c3 ∧ fitsIn s.par.width.bits s.coeffs.c4 ∧
  fitsIn s.par.width.bits s.coeffs.c5 ∧ fitsIn s.par.width.bits s.coeffs.c6 ∧
  fitsIn s.par.width.bits s.temp ∧ fitsIn s.par.width.bits s.tcorr ∧
  fitsIn s.par.width.bits s.pcomp ∧ fitsIn s.par.width.bits s.pcorr ∧
  fitsIn s.par.width.bits s.res

/-- A query: `GETT` or `GETP`. -/
abbrev isQuery (c : BitVec 3) : Prop := cmdOp c = .gett ∨ cmdOp c = .getp

/-- What holds of every reachable state. -/
structure Inv (s : State) : Prop where
  /-- `UPC` is inside the micro-program of `CUR` (R31). -/
  position : s.busy = true → s.upc.toNat ≤ lastIndex (cmdOp s.cur)
  /-- `LC` is `Uninitialized` from the first micro-operation of `INIT` to its last (R126). -/
  initUninitialized :
    s.busy = true → cmdOp s.cur = .init → 0 < s.upc.toNat → s.lc = .uninitialized
  /-- A query past its check runs in `Ready` (R120, R153). -/
  queryReady : s.busy = true → isQuery s.cur → 0 < s.upc.toNat → s.lc = .ready
  /-- In `Ready` the coefficients are those `DEC` computed from the words read (R35). -/
  coefficients : s.lc = .ready → s.coeffs = decodeWords s.wd
  /-- Past its second micro-operation, `INIT` has the auxiliary clock enabled (R75). -/
  initAux : s.busy = true → cmdOp s.cur = .init → 1 < s.upc.toNat → s.auxen = true
  /-- In `Ready` the auxiliary clock is enabled (R30, R147). -/
  readyAux : s.lc = .ready → s.auxen = true
  /-- No `W`-bit register overflows (R98). -/
  fits : registersFit s

/-- What an event tells of the request alone: the byte received is left out. -/
def Machine.Event.sent : Event → Event
  | .xfer out _ => .xfer out 0
  | e => e

/-- The event an entry of a micro-program emits, the received byte left out; internal entries emit none
(R125). -/
def Machine.Slot.event (p : Params) : Slot → Option Event
  | .op .cfg => some .cfg
  | .op .auxon => some .auxOn
  | .op .modeA => some (.mode .a)
  | .op .modeB => some (.mode .b)
  | .op (.tx b) => some (.xfer b 0)
  | .op (.wait n) => some (.wait n)
  | .op _ => none
  | .rxh => some (.xfer p.dummy 0)
  | .rxl _ => some (.xfer p.dummy 0)

/-- The events of the first `n` micro-operations of the command word `cur`. -/
def commandEvents (p : Params) (cur : BitVec 3) (n : Nat) : List Event :=
  ((program p cur).take n).filterMap (Slot.event p)

/-- While a command runs, the trace ends with the events of its micro-operations so far (R49 (a)). -/
def TraceSync (s : State) : Prop :=
  s.busy = true → commandEvents s.par s.cur s.upc.toNat <:+ s.trace.map Event.sent

/-- The reset sequence as events (R84). -/
def resetSequence (p : Params) : List Event :=
  [.mode .a, .xfer p.resetSeq.b0 0, .xfer p.resetSeq.b1 0, .xfer p.resetSeq.b2 0]

/-- The first byte of a calibration or an acquisition command (R84). -/
def isFirstCommandByte (p : Params) (b : Byte) : Bool :=
  decide (b ∈ [p.calCmd0.b0, p.calCmd1.b0, p.calCmd2.b0, p.calCmd3.b0, p.acqT.b0, p.acqP.b0])

/-- No other byte the block sends looks like the first byte of a command. -/
def firstBytesDistinct (p : Params) : Bool :=
  [p.resetSeq.b0, p.resetSeq.b1, p.resetSeq.b2, p.calCmd0.b1, p.calCmd1.b1, p.calCmd2.b1, p.calCmd3.b1,
   p.acqT.b1, p.acqP.b1, p.dummy].all fun b => !isFirstCommandByte p b

/-- Every transaction of a trace is directly preceded by the reset sequence (R84). -/
def transactionsResetFirst (p : Params) (trace : List Event) : Prop :=
  ∀ before out inn after, trace = before ++ Event.xfer out inn :: after →
    isFirstCommandByte p out = true → resetSequence p <:+ before.map Event.sent

/-- The clock mode selected last (R85). -/
def lastMode (trace : List Event) : Option ModeSel :=
  trace.foldl (fun m e => match e with | .mode k => some k | _ => m) none

/-- The machine after `n` steps. -/
abbrev run (n : Nat) (s : State) : Host.Outcome State Fault Refusal :=
  Host.Core.run Sys2Proof.core n s

end Sys2Proof
end

