-- ==== Sys2Proof/Certificates/Slice0/Obligations.lean ====
section
/-! DEFINITION. The statements about the model. A statement about a command run ends in `∃ c u`, the values of
`CUR` and `UPC` while `BUSY` = 0: the spec leaves them open (R118), and no statement says what they are. -/

open Sys2Proof Sys2Proof.Machine

namespace Sys2Proof.Claim

/-- The next port request of `s` is completed with byte `b`, leaving `s'`: by the next answer of the list, or
by a free byte once the list has run out (log 3). -/
def Answered (s : State) (b : Byte) (s' : State) : Prop :=
  (∃ rest, s.replies = .completes b :: rest ∧ s' = { s with replies := rest }) ∨
  (s.replies = [] ∧ b = Config.busByte s.drawn ∧ s' = { s with drawn := s.drawn + 1 })

/-- A command runs and `i` is the micro-operation at its control state (R118). -/
def StandsAt (s : State) (i : Instr) : Prop :=
  s.busy = true ∧ microOp s.par s.cur s.upc = some i

/-- The first `n` answers of the collaborators, `a 0` the first (log 3). -/
def answers (a : Nat → Byte) (n : Nat) : List Reply := (List.range n).map fun k => .completes (a k)

/-- The four events of a reset sequence, with the bytes the transport returns (R81). -/
def resetEvents (p : Params) (x0 x1 x2 : Byte) : List Event :=
  [.mode .a, .xfer p.resetSeq.b0 x0, .xfer p.resetSeq.b1 x1, .xfer p.resetSeq.b2 x2]

/-- The five events of a calibration-word read, the last two bytes being the word (R82). -/
def rdcalEvents (p : Params) (c : Pattern2) (x0 x1 hi lo : Byte) : List Event :=
  [.xfer c.b0 x0, .xfer c.b1 x1, .mode .b, .xfer p.dummy hi, .xfer p.dummy lo]

/-- The ten events of an acquisition, with the answers from `a k` on (R83). -/
def acqEvents (p : Params) (c : Pattern2) (a : Nat → Byte) (k : Nat) : List Event :=
  resetEvents p (a (k + 1)) (a (k + 2)) (a (k + 3)) ++
  [.xfer c.b0 (a (k + 4)), .xfer c.b1 (a (k + 5)), .wait p.convDelay, .mode .b,
   .xfer p.dummy (a (k + 8)), .xfer p.dummy (a (k + 9))]

/-- The 42 events of `INIT` (R121): every port request but `AUXON` takes one answer. -/
def initEvents (p : Params) (a : Nat → Byte) : List Event :=
  [.cfg, .auxOn] ++ resetEvents p (a 2) (a 3) (a 4) ++
  resetEvents p (a 6) (a 7) (a 8) ++ rdcalEvents p p.calCmd0 (a 9) (a 10) (a 12) (a 13) ++
  resetEvents p (a 15) (a 16) (a 17) ++ rdcalEvents p p.calCmd1 (a 18) (a 19) (a 21) (a 22) ++
  resetEvents p (a 24) (a 25) (a 26) ++ rdcalEvents p p.calCmd2 (a 27) (a 28) (a 30) (a 31) ++
  resetEvents p (a 33) (a 34) (a 35) ++ rdcalEvents p p.calCmd3 (a 36) (a 37) (a 39) (a 40)

/-- `RDCAL(i)` as an instruction. -/
def rdcal : Fin 4 → Instr
  | 0 => .rdcal0
  | 1 => .rdcal1
  | 2 => .rdcal2
  | 3 => .rdcal3

/-- The numbers the host reads `LC` as (R23). -/
def lcCode : Lifecycle → Nat
  | .uninitialized => 0
  | .ready => 1

/-- The numbers the host reads `RKIND` as (R28). -/
def rkindCode : ResultKind → Nat
  | .none => 0
  | .temperature => 1
  | .pressureMbar => 2
  | .pressureMmhg => 3

/-- The numbers the host reads `ERR` as (R29, R129). -/
def errCode : ErrCode → Nat
  | .none => 0
  | .uninit => 1

/-- The six coefficient formulas in arithmetic: fields of the words as quotients and remainders (R66 to R69). -/
def coefficients (w : RawWords) : Coeffs where
  c1 := (w.w0.toNat / 2 : Nat)
  c2 := (w.w2.toNat % 64 * 64 + w.w3.toNat % 64 : Nat)
  c3 := (w.w3.toNat / 64 : Nat)
  c4 := (w.w2.toNat / 64 : Nat)
  c5 := (w.w0.toNat % 2 * 1024 + w.w1.toNat / 64 : Nat)
  c6 := (w.w1.toNat % 64 : Nat)

/-- `TEMP` by the formulas of R99 to R101, `/` the floor quotient. -/
def tempFormula (c : Coeffs) (d2 : RawWord) : Int :=
  200 + ((d2.toNat : Int) - (8 * c.c5 + 20224)) * (c.c6 + 50) / 1024

/-- `PCOMP` by the formulas of R99, R100 and R102 to R105. -/
def pcompFormula (c : Coeffs) (d1 d2 : RawWord) : Int :=
  let dT : Int := (d2.toNat : Int) - (8 * c.c5 + 20224)
  let off : Int := c.c2 * 4 + (c.c4 - 512) * dT / 4096
  let sens : Int := c.c1 + c.c3 * dT / 1024 + 24576
  let x : Int := sens * ((d1.toNat : Int) - 7168) / 16384 - off
  x * 10 / 32 + 2500

/-- `T2` and `P2` by the formulas of R106 to R109. -/
def correctionFormula (c6 t p : Int) : Int × Int :=
  if t < 200 then
    let t2 := 11 * (c6 + 24) * ((200 - t) * (200 - t)) / 1048576
    (t2, 3 * t2 * (p - 3500) / 16384)
  else if 450 < t then
    let t2 := 3 * (c6 + 24) * ((450 - t) * (450 - t)) / 1048576
    (t2, t2 * (p - 10000) / 8192)
  else (0, 0)

end Sys2Proof.Claim

open Sys2Proof.Claim

/-! ### Encodings -/

/-- R57: the complete map of the eight command words. -/
def Obligations.CommandWordMap : Prop :=
  ∀ p : Params,
    decode p (.h 0b000) = .ok (.init false) ∧ decode p (.h 0b001) = .ok (.sreset false) ∧
    decode p (.h 0b010) = .ok (.gett false) ∧ decode p (.h 0b011) = .ok .getpMbar ∧
    decode p (.h 0b100) = .ok (.init true) ∧ decode p (.h 0b101) = .ok (.sreset true) ∧
    decode p (.h 0b110) = .ok (.gett true) ∧ decode p (.h 0b111) = .ok .getpMmhg

/-- A few words written out from 30_encoding.md, with the default parameters, whose pattern
bytes and dummy byte are general knowledge (log 2). -/
def Obligations.SampleWordsDecode : Prop :=
  let p := Params.default
  decode p (.t 0x000) = .ok .cfg ∧ decode p (.t 0x100) = .ok .modeA ∧
  decode p (.t 0x101) = .ok .modeB ∧ decode p (.t 0x215) = .ok (.tx 0x15) ∧
  decode p (.t 0x200) = .ok .rx ∧ decode p (.t 0x300) = .error .transportOpNeverSent ∧
  decode p (.d 0x0023) = .ok (.wait 35) ∧ decode p (.aux 1) = .ok .auxon ∧
  decode p (.u 0b010000000) = .ok (.chk false false) ∧ decode p (.u 0b000101010) = .ok (.dec false) ∧
  decode p (.u 0b010001011) = .ok (.cmpt false) ∧ decode p (.u 0b111010101) = .ok (.cmpp .mmHg) ∧
  decode p (.b3 0x155540) = .ok .sresetPattern ∧ decode p (.b2 0x1D90) = .ok .rdcal2 ∧
  decode p (.b2 0x0F40) = .ok .acqP ∧ decode p (.rd16 0xB75C) = .ok (.rd16 0xB7 0x5C) ∧
  decode p (.w0 0xB75C) = .ok (.cal0 23470 0) ∧ decode p (.w1 0x9D19) = .ok (.cal1 628 25)

/-- Decode and encode agree on every instruction an instance can issue, with every operand at every value. The
premise on the parameters is the model's (log 9): only then can the bus words be told apart. -/
def Obligations.DecodeOfEncode : Prop :=
  ∀ (p : Params) (i : Instr), p.unambiguous = true → i.wellFormed p = true →
    decode p (encode p i) = .ok i

/-- A word that decodes is the word its instruction encodes to in that format. (An instruction found at a
control state has two words, its place and its request; the premise on the format keeps the one.) -/
def Obligations.EncodeOfDecode : Prop :=
  ∀ (p : Params) (w : PortWord) (i : Instr), decode p w = .ok i →
    (encode p i).format = w.format → encode p i = w

/-- R70: the decoder is a bijection between word quadruples and coefficient sextuples in the ranges of R24. -/
def Obligations.CoefficientsFillTheWords : Prop :=
  (∀ w, (decodeWords w).inRange) ∧
  (∀ w w', decodeWords w = decodeWords w' → w = w') ∧
  (∀ c : Coeffs, c.inRange → ∃ w, decodeWords w = c)

/-- R59, R60: the request word of every micro-operation that sends one, and the event it is seen as. -/
def Obligations.RequestWords : Prop :=
  ∀ (p : Params) (b inn : Byte) (n : BitVec 16),
    (encode p .cfg = .t 0x000 ∧ Event.cfg.treq = some 0x000) ∧
    (encode p .modeA = .t 0x100 ∧ (Event.mode .a).treq = some 0x100) ∧
    (encode p .modeB = .t 0x101 ∧ (Event.mode .b).treq = some 0x101) ∧
    (encode p (.tx b) = .t ((2 : BitVec 2) ++ b) ∧
      (Event.xfer b inn).treq = some ((2 : BitVec 2) ++ b)) ∧
    (encode p .rx = .t ((2 : BitVec 2) ++ p.dummy) ∧
      (Event.xfer p.dummy inn).treq = some ((2 : BitVec 2) ++ p.dummy)) ∧
    (encode p (.wait n) = .d n ∧ (Event.wait n).dreq = some n) ∧
    (∀ (e : Event) (w : BitVec 10), e.treq = some w → w.extractLsb' 8 2 ≠ 3)

/-! ### One step -/

/-- A step runs the decoded instruction, and what it adds around it: the hardware reset first, then the
micro-operation at the control state, then a command word presented; the host's input is used up, but for a
command presented to a busy block, which stays presented. The list of inputs is the model's (log 5), and so is
the idle step (log 1). -/
def Obligations.StepRunsTheDecodedInstruction : Prop :=
  ∀ (s : State) (rest : List HostInput),
    (s.inputs = .reset :: rest → step s = exec .rst { s with inputs := rest }) ∧
    (∀ i, s.busy = true → decode s.par (.u (s.cur ++ s.upc)) = .ok i →
      (s.inputs = [] → step s = exec i s) ∧
      (s.inputs = .idle :: rest → step s = exec i { s with inputs := rest }) ∧
      (∀ w, s.inputs = .command w :: rest → step s = exec i s)) ∧
    (∀ w i, s.busy = false → s.inputs = .command w :: rest → decode s.par (.h w) = .ok i →
      step s = exec i { s with inputs := rest }) ∧
    (s.busy = false → s.inputs = [] → step s = .next s) ∧
    (s.busy = false → s.inputs = .idle :: rest → step s = .next { s with inputs := rest })

/-- R117: acceptance does `CUR <- cmd; UPC <- 0; BUSY <- 1` and changes nothing else; while `BUSY` = 1 no
command is accepted. -/
def Obligations.CommandAcceptance : Prop :=
  ∀ (s : State) (unit : Bool) (i : Instr) (cmd : BitVec 3),
    (i, cmd) ∈ [(Instr.init unit, bit unit ++ (0b00 : BitVec 2)),
                (Instr.sreset unit, bit unit ++ (0b01 : BitVec 2)),
                (Instr.gett unit, bit unit ++ (0b10 : BitVec 2)),
                (Instr.getpMbar, 0b011), (Instr.getpMmhg, 0b111)] →
    (s.busy = false → exec i s = .next { s with cur := cmd, upc := 0, busy := true }) ∧
    (s.busy = true → exec i s = .next s)

/-- R117: a command presented while `BUSY` = 1 changes nothing of what the running command does. That the host
keeps presenting it is the model's choice (log 5). -/
def Obligations.BusyBlockIgnoresTheHostPort : Prop :=
  ∀ (s t : State) (w : BitVec 3) (rest : List HostInput), s.busy = true →
    step { s with inputs := [] } = .next t →
    step { s with inputs := .command w :: rest } =
      .next { t with inputs := .command w :: rest }

/-- R118: a completed micro-operation is followed by the next one of the same command; after the last, and
after a check that failed, the command is over. -/
def Obligations.MicroOperationsInOrder : Prop :=
  ∀ (s : State), s.busy = true → s.inputs = [] → s.replies.head? ≠ some .never →
    s.upc.toNat ≤ lastIndex (cmdOp s.cur) →
    ∃ t, step s = .next t ∧
      if s.upc.toNat = lastIndex (cmdOp s.cur) then t.busy = false
      else if isQuery s.cur ∧ s.upc.toNat = 0 ∧ s.lc = .uninitialized then t.busy = false
      else t.busy = true ∧ t.cur = s.cur ∧ t.upc.toNat = s.upc.toNat + 1

/-- R125: the complete micro-program of each command, entry by entry. -/
def Obligations.MicroProgramTables : Prop :=
  ∀ (p : Params) (unit : Bool),
    let reset : List Instr := [.modeA, .tx p.resetSeq.b0, .tx p.resetSeq.b1, .tx p.resetSeq.b2]
    let rdcal : Fin 4 → List Instr :=
      fun i => [.tx (p.calCmd i).b0, .tx (p.calCmd i).b1, .modeB, .rx, .rx]
    let acq : Kind → List Instr :=
      fun k => reset ++ [.tx (p.acqCmd k).b0, .tx (p.acqCmd k).b1, .wait p.convDelay, .modeB, .rx, .rx]
    (program p (bit unit ++ (0b01 : BitVec 2))).map Slot.instr = reset ∧
    (program p (bit unit ++ (0b00 : BitVec 2))).map Slot.instr =
      [.cfg, .auxon] ++ reset ++ (reset ++ rdcal 0) ++ (reset ++ rdcal 1) ++ (reset ++ rdcal 2) ++
      (reset ++ rdcal 3) ++ [.dec unit] ∧
    (program p (bit unit ++ (0b10 : BitVec 2))).map Slot.instr =
      [.chk unit false] ++ acq .temperature ++ [.cmpt unit] ∧
    (program p (bit unit ++ (0b11 : BitVec 2))).map Slot.instr =
      [.chk unit true] ++ acq .pressure ++ acq .temperature ++ [.cmpp (unitOf unit)]

/-! ### Port micro-operations -/

/-- R74, R121: `CFG` emits `Cfg`; standing at the head of `INIT` it also clears `LC`. -/
def Obligations.CfgConfiguresTheTransport : Prop :=
  ∀ (s s' : State) (b : Byte), StandsAt s .cfg → Answered s b s' →
    exec .cfg s =
      .next { s' with trace := s.trace ++ [.cfg], lc := .uninitialized, upc := s.upc + 1 }

/-- R75: `AUXON` raises `AUXEN` and emits `AuxOn`; it waits for nobody. -/
def Obligations.AuxonEnablesTheClock : Prop :=
  ∀ s : State, StandsAt s .auxon →
    exec .auxon s =
      .next { s with trace := s.trace ++ [.auxOn], auxen := true, upc := s.upc + 1 }

/-- R76: `MODE m` emits `Mode(m)` and writes no register. -/
def Obligations.ModeSelectsAClockMode : Prop :=
  ∀ (s s' : State) (b : Byte), Answered s b s' →
    (StandsAt s .modeA →
      exec .modeA s = .next { s' with trace := s.trace ++ [.mode .a], upc := s.upc + 1 }) ∧
    (StandsAt s .modeB →
      exec .modeB s = .next { s' with trace := s.trace ++ [.mode .b], upc := s.upc + 1 })

/-- R77, R122: `TX b` sends `b` and discards the byte that comes back; the last `TX` of a host `SRESET` also
ends the command with `ERR` = None. -/
def Obligations.TxSendsAByte : Prop :=
  ∀ (s s' : State) (b inn : Byte), StandsAt s (.tx b) → Answered s inn s' →
    (¬(cmdOp s.cur = .sreset ∧ s.upc.toNat = 3) →
      exec (.tx b) s = .next { s' with trace := s.trace ++ [.xfer b inn], upc := s.upc + 1 }) ∧
    (cmdOp s.cur = .sreset ∧ s.upc.toNat = 3 →
      ∃ c u, exec (.tx b) s =
        .next { s' with trace := s.trace ++ [.xfer b inn], err := .none, busy := false,
                        cur := c, upc := u })

/-- R78, R80: every `RX` of a micro-program is the first or the second of a 16-bit read. The first latches its
byte in `HI`; the second puts both bytes, the first on top, into the destination its place names (R82, R83), and
into nothing else. -/
def Obligations.RxReadsSixteenBits : Prop :=
  ∀ (s s' : State) (b : Byte), StandsAt s .rx → Answered s b s' →
    let first : List (CmdOp × Nat) :=
      [(.init, 13), (.init, 22), (.init, 31), (.init, 40), (.gett, 9), (.getp, 9), (.getp, 19)]
    let second : List (CmdOp × Nat × RawReg) :=
      [(.init, 14, .wd 0), (.init, 23, .wd 1), (.init, 32, .wd 2), (.init, 41, .wd 3),
       (.gett, 10, .d2), (.getp, 10, .d1), (.getp, 20, .d2)]
    let seen := s.trace ++ [.xfer s.par.dummy b]
    ((cmdOp s.cur, s.upc.toNat) ∈ first ∨ ∃ dst, (cmdOp s.cur, s.upc.toNat, dst) ∈ second) ∧
    ((cmdOp s.cur, s.upc.toNat) ∈ first →
      exec .rx s = .next { s' with trace := seen, hi := b, upc := s.upc + 1 }) ∧
    (∀ dst, (cmdOp s.cur, s.upc.toNat, dst) ∈ second →
      exec .rx s = .next { (s'.writeRaw dst (s.hi ++ b)) with trace := seen, upc := s.upc + 1 })

/-- R79: `WAIT n` emits `Wait(n)` and writes no register; `n` is always `CONV_DELAY`. -/
def Obligations.WaitRequestsADelay : Prop :=
  ∀ (s s' : State) (b : Byte) (n : BitVec 16), StandsAt s (.wait n) → Answered s b s' →
    n = s.par.convDelay ∧
    exec (.wait n) s = .next { s' with trace := s.trace ++ [.wait n], upc := s.upc + 1 }

/-- R136: a request that is never completed leaves the block at its micro-operation with `BUSY` = 1 for ever,
raising nothing and accepting no command; only hardware reset ends this. That a stuck block steps to itself, and
what becomes of the outstanding request at the reset, are the model's choices (log 4, log 14). -/
def Obligations.UnansweredRequestIsStuck : Prop :=
  ∀ (s : State) (i : Instr) (rest : List Reply), StandsAt s i → isPortRequest i = true →
    s.replies = .never :: rest →
    exec i s = .next s ∧
    (∀ n, run n { s with inputs := [] } = .next { s with inputs := [] }) ∧
    (∀ n w, run n { s with inputs := [.command w] } = .next { s with inputs := [.command w] }) ∧
    (∃ t, step { s with inputs := [.reset] } = .next t ∧ t.busy = false ∧ t.replies = rest)

/-! ### Internal micro-operations -/

/-- R120: in `Ready` the check does nothing but let the command go on. -/
def Obligations.CheckPassesInReady : Prop :=
  ∀ (s : State) (unit k : Bool), StandsAt s (.chk unit k) → s.lc = .ready →
    exec (.chk unit k) s = .next { s with upc := s.upc + 1 }

/-- R131: in `Uninitialized` the check raises `Uninit`: `ERR <- Uninit; BUSY <- 0`, and nothing else changes,
the trace least of all. -/
def Obligations.CheckRaisesUninit : Prop :=
  ∀ (s : State) (unit k : Bool), s.lc = .uninitialized →
    exec (.chk unit k) s = .next { s with err := .uninit, busy := false }

/-- R88 to R94: `DEC` writes all six coefficients from the words read, and in the same step `LC <- Ready`,
`ERR <- None` (R121). -/
def Obligations.DecUnpacksTheCoefficients : Prop :=
  ∀ (s : State) (unit : Bool), StandsAt s (.dec unit) →
    ∃ c u, exec (.dec unit) s =
      .next { s with coeffs := coefficients s.wd, lc := .ready, err := .none, busy := false,
                     cur := c, upc := u }

/-- R113: `CMPT` writes `TEMP`, `RES`, `RKIND` and `ERR`, and nothing else. -/
def Obligations.CmptComputesTheTemperature : Prop :=
  ∀ (s : State) (unit : Bool), StandsAt s (.cmpt unit) →
    ∃ c u, exec (.cmpt unit) s =
      .next { s with temp := tempFormula s.coeffs s.d2, res := tempFormula s.coeffs s.d2,
                     rkind := .temperature, err := .none, busy := false, cur := c, upc := u }

/-- R114: `CMPP(u)` writes the four output registers, the same way for both units, and the result the unit
selects. -/
def Obligations.CmppComputesThePressure : Prop :=
  ∀ (s : State) (unit : PressureUnit), StandsAt s (.cmpp unit) →
    let t := tempFormula s.coeffs s.d2
    let p := pcompFormula s.coeffs s.d1 s.d2
    let k := correctionFormula s.coeffs.c6 t p
    ∃ c u, exec (.cmpp unit) s =
      .next { s with temp := t, tcorr := t - k.1, pcomp := p, pcorr := p - k.2,
                     res := (match unit with | .millibar => p - k.2 | .mmHg => p * 75006),
                     rkind := (match unit with | .millibar => .pressureMbar | .mmHg => .pressureMmhg),
                     err := .none, busy := false, cur := c, upc := u }

/-- R101: for every coefficient set, `D2` = `UT1` gives exactly 200. -/
def Obligations.TemperatureAnchor : Prop :=
  ∀ (s : State) (unit : Bool), (s.d2.toNat : Int) = 8 * s.coeffs.c5 + 20224 →
    ∃ t, exec (.cmpt unit) s = .next t ∧ t.temp = 200 ∧ t.res = 200

/-- R106, R109: from 200 to 450, both edges included, the corrected values are the uncorrected ones. -/
def Obligations.NoCorrectionInsideTheRange : Prop :=
  ∀ (s : State) (unit : PressureUnit), ∃ t, exec (.cmpp unit) s = .next t ∧
    (200 ≤ t.temp → t.temp ≤ 450 → t.tcorr = t.temp ∧ t.pcorr = t.pcomp)

/-- R107, R108: the temperature correction never raises the temperature while `C6` is in its range. -/
def Obligations.CorrectionLowersTheTemperature : Prop :=
  ∀ (s : State) (unit : PressureUnit), s.coeffs.inRange →
    ∃ t, exec (.cmpp unit) s = .next t ∧ t.tcorr ≤ t.temp

/-- R111: the mmHg result is a pure linear scale of the uncorrected `PCOMP`, and the unit changes none of the
four output registers. -/
def Obligations.MmhgIsLinearInPcomp : Prop :=
  ∀ s : State, ∃ t t', exec (.cmpp .mmHg) s = .next t ∧ exec (.cmpp .millibar) s = .next t' ∧
    t.res = t.pcomp * 75006 ∧ t'.res = t'.pcorr ∧
    t.temp = t'.temp ∧ t.tcorr = t'.tcorr ∧ t.pcomp = t'.pcomp ∧ t.pcorr = t'.pcorr

/-- R98: for coefficients in their ranges and every pair of raw values the results stay in the intervals of
the table, so no register of 36 bits overflows. -/
def Obligations.ResultsStayInTheirIntervals : Prop :=
  ∀ (s : State) (unit : PressureUnit), s.coeffs.inRange →
    ∃ t, exec (.cmpp unit) s = .next t ∧
      (-3839 ≤ t.temp ∧ t.temp ≤ 5200) ∧ (-18727 ≤ t.tcorr ∧ t.tcorr ≤ 5200) ∧
      (-18414 ≤ t.pcomp ∧ t.pcomp ≤ 118500) ∧ (-331912 ≤ t.pcorr ∧ t.pcorr ≤ 178240) ∧
      fitsIn 36 t.res

/-! ### Sequences and words -/

/-- R61: the reset pattern is its three bytes in order; at the end of a host `SRESET` it ends the command. -/
def Obligations.ResetPatternSendsThreeBytes : Prop :=
  ∀ (s : State) (a : Nat → Byte) (rest : List Reply), s.busy = true →
    s.replies = answers a 3 ++ rest →
    let seen := s.trace ++ [.xfer s.par.resetSeq.b0 (a 0), .xfer s.par.resetSeq.b1 (a 1),
                            .xfer s.par.resetSeq.b2 (a 2)]
    ((cmdOp s.cur, s.upc.toNat) ∈
        [(CmdOp.init, 3), (.init, 7), (.init, 16), (.init, 25), (.init, 34), (.gett, 2), (.getp, 2),
         (.getp, 12)] →
      exec .sresetPattern s = .next { s with trace := seen, replies := rest, upc := s.upc + 3 }) ∧
    (cmdOp s.cur = .sreset ∧ s.upc.toNat = 1 →
      ∃ c u, exec .sresetPattern s =
        .next { s with trace := seen, replies := rest, err := .none, busy := false,
                       cur := c, upc := u })

/-- R82: `RDCAL(i)` writes `WD[i]` and `HI` and nothing else, and its five events are those of the rule. -/
def Obligations.RdcalReadsOneWord : Prop :=
  ∀ (s : State) (i : Fin 4) (a : Nat → Byte) (rest : List Reply),
    s.busy = true → cmdOp s.cur = .init → s.upc.toNat = 10 + 9 * i.val →
    s.replies = answers a 5 ++ rest →
    exec (rdcal i) s =
      .next { s with wd := s.wd.set i (a 3 ++ a 4), hi := a 3, replies := rest, upc := s.upc + 5,
                     trace := s.trace ++
                       rdcalEvents s.par (s.par.calCmd i) (a 0) (a 1) (a 3) (a 4) }

/-- R83: `ACQ(k)` writes `D2` for Temperature, `D1` for Pressure, and `HI`, and its ten events are those of
the rule, the wait before the mode switch. -/
def Obligations.AcqMeasures : Prop :=
  ∀ (s : State) (a : Nat → Byte) (rest : List Reply),
    s.busy = true → s.replies = answers a 10 ++ rest →
    ((cmdOp s.cur, s.upc.toNat) ∈ [(CmdOp.gett, 1), (.getp, 11)] →
      exec .acqT s =
        .next { s with d2 := a 8 ++ a 9, hi := a 8, replies := rest, upc := s.upc + 10,
                       trace := s.trace ++ acqEvents s.par s.par.acqT a 0 }) ∧
    (cmdOp s.cur = .getp ∧ s.upc.toNat = 1 →
      exec .acqP s =
        .next { s with d1 := a 8 ++ a 9, hi := a 8, replies := rest, upc := s.upc + 10,
                       trace := s.trace ++ acqEvents s.par s.par.acqP a 0 })

/-- R42, R65: a 16-bit value from the sensor is put, first byte on top, where the read stands. That `RD16` brings
its own two answers is the model's choice (log 18). -/
def Obligations.SixteenBitValuesAreBigEndian : Prop :=
  ∀ (s : State) (hi lo : Byte) (dst : RawReg), s.busy = true →
    (cmdOp s.cur, s.upc.toNat, dst) ∈
      [(CmdOp.init, 13, RawReg.wd 0), (.init, 22, .wd 1), (.init, 31, .wd 2), (.init, 40, .wd 3),
       (.gett, 9, .d2), (.getp, 9, .d1), (.getp, 19, .d2)] →
    ∃ t, exec (.rd16 hi lo) s = .next t ∧
      (t.readRaw dst).toNat = hi.toNat * 256 + lo.toNat ∧
      t = { (s.writeRaw dst (t.readRaw dst)) with
              hi := hi, upc := s.upc + 2,
              trace := s.trace ++ [.xfer s.par.dummy hi, .xfer s.par.dummy lo] }

/-- R66 to R69: each calibration word is read into its own register, and the fields of the word are the
coefficient bits the layout names. That the word brings its own two answers is the model's choice (log 18). -/
def Obligations.CalibrationWordLayouts : Prop :=
  ∀ (s : State) (c1 : BitVec 15) (c5hi : BitVec 1) (c5lo c4 c3 : BitVec 10) (c6 c2hi c2lo : BitVec 6),
    s.busy = true → cmdOp s.cur = .init →
    let read : RawWord → RawWords → State := fun w wd =>
      { s with wd := wd, hi := w.extractLsb' 8 8, upc := s.upc + 2,
               trace := s.trace ++ [.xfer s.par.dummy (w.extractLsb' 8 8),
                                    .xfer s.par.dummy (w.extractLsb' 0 8)] }
    let ws : RawWords := ⟨c1 ++ c5hi, c5lo ++ c6, c4 ++ c2hi, c3 ++ c2lo⟩
    (s.upc.toNat = 13 →
      exec (.cal0 c1 c5hi) s = .next (read ws.w0 { s.wd with w0 := ws.w0 })) ∧
    (s.upc.toNat = 22 →
      exec (.cal1 c5lo c6) s = .next (read ws.w1 { s.wd with w1 := ws.w1 })) ∧
    (s.upc.toNat = 31 →
      exec (.cal2 c4 c2hi) s = .next (read ws.w2 { s.wd with w2 := ws.w2 })) ∧
    (s.upc.toNat = 40 →
      exec (.cal3 c3 c2lo) s = .next (read ws.w3 { s.wd with w3 := ws.w3 })) ∧
    decodeWords ws =
      ⟨c1.toNat, (c2hi ++ c2lo).toNat, c3.toNat, c4.toNat, (c5hi ++ c5lo).toNat, c6.toNat⟩

/-- The internal sequences are what the block runs, one micro-operation a step: from every place where the
micro-programs put a sequence, its steps and its meaning are the same, whatever the collaborators answer and
also where they stop answering. That such a row of the opcode table is an instruction of several steps is the
model's choice (log 8, log 18). -/
def Obligations.SequencesAreTheirSteps : Prop :=
  ∀ s : State, s.busy = true → s.inputs = [] →
    ((cmdOp s.cur, s.upc.toNat) ∈
        [(CmdOp.sreset, 1), (.init, 3), (.init, 7), (.init, 16), (.init, 25), (.init, 34), (.gett, 2),
         (.getp, 2), (.getp, 12)] →
      run 3 s = exec .sresetPattern s) ∧
    (∀ i : Fin 4, cmdOp s.cur = .init ∧ s.upc.toNat = 10 + 9 * i.val →
      run 5 s = exec (rdcal i) s) ∧
    ((cmdOp s.cur, s.upc.toNat) ∈ [(CmdOp.gett, 1), (.getp, 11)] → run 10 s = exec .acqT s) ∧
    (cmdOp s.cur = .getp ∧ s.upc.toNat = 1 → run 10 s = exec .acqP s) ∧
    (∀ hi lo : Byte, (cmdOp s.cur, s.upc.toNat) ∈
        [(CmdOp.init, 13), (.init, 22), (.init, 31), (.init, 40), (.gett, 9), (.getp, 9), (.getp, 19)] →
      run 2 (s.sensorAnswers (hi ++ lo)) = exec (.rd16 hi lo) s) ∧
    (∀ (f : BitVec 15) (g : BitVec 1), cmdOp s.cur = .init ∧ s.upc.toNat = 13 →
      run 2 (s.sensorAnswers (f ++ g)) = exec (.cal0 f g) s) ∧
    (∀ (f : BitVec 10) (g : BitVec 6), cmdOp s.cur = .init →
      (s.upc.toNat = 22 → run 2 (s.sensorAnswers (f ++ g)) = exec (.cal1 f g) s) ∧
      (s.upc.toNat = 31 → run 2 (s.sensorAnswers (f ++ g)) = exec (.cal2 f g) s) ∧
      (s.upc.toNat = 40 → run 2 (s.sensorAnswers (f ++ g)) = exec (.cal3 f g) s))

/-! ### Whole commands -/

/-- R121: `INIT`, accepted and run to its end: 43 micro-operations after acceptance, 42 events; it writes `LC`,
`AUXEN`, `WD`, `HI`, `C`, `ERR` and nothing else. -/
def Obligations.InitRunsToReady : Prop :=
  ∀ (s : State) (unit : Bool) (a : Nat → Byte) (rest : List Reply),
    s.busy = false → s.inputs = [.command (bit unit ++ (0b00 : BitVec 2))] →
    s.replies = answers a 41 ++ rest →
    let words : RawWords := ⟨a 12 ++ a 13, a 21 ++ a 22, a 30 ++ a 31, a 39 ++ a 40⟩
    ∃ c u, run 44 s =
      .next { s with lc := .ready, auxen := true, wd := words, hi := a 39,
                     coeffs := coefficients words, err := .none,
                     trace := s.trace ++ initEvents s.par a, inputs := [], replies := rest,
                     cur := c, upc := u }

/-- R122: `SRESET` in either lifecycle state: four events, `ERR` = None, no data register changed. -/
def Obligations.SresetRuns : Prop :=
  ∀ (s : State) (unit : Bool) (a : Nat → Byte) (rest : List Reply),
    s.busy = false → s.inputs = [.command (bit unit ++ (0b01 : BitVec 2))] →
    s.replies = answers a 4 ++ rest →
    ∃ c u, run 5 s =
      .next { s with err := .none, trace := s.trace ++ resetEvents s.par (a 1) (a 2) (a 3),
                     inputs := [], replies := rest, cur := c, upc := u }

/-- R123: `GETT` in `Ready`: ten events; it writes `D2`, `HI`, `TEMP`, `RES`, `RKIND`, `ERR` and nothing
else. -/
def Obligations.GettRuns : Prop :=
  ∀ (s : State) (unit : Bool) (a : Nat → Byte) (rest : List Reply),
    s.busy = false → s.inputs = [.command (bit unit ++ (0b10 : BitVec 2))] → s.lc = .ready →
    s.replies = answers a 10 ++ rest →
    let t := tempFormula s.coeffs (a 8 ++ a 9)
    ∃ c u, run 13 s =
      .next { s with d2 := a 8 ++ a 9, hi := a 8, temp := t, res := t, rkind := .temperature,
                     err := .none, trace := s.trace ++ acqEvents s.par s.par.acqT a 0,
                     inputs := [], replies := rest, cur := c, upc := u }

/-- R124: `GETP` in `Ready`: pressure, then temperature, twenty events; it writes `D1`, `D2`, `HI`, `TEMP`,
`TCORR`, `PCOMP`, `PCORR`, `RES`, `RKIND`, `ERR` and nothing else. -/
def Obligations.GetpRuns : Prop :=
  ∀ (s : State) (unit : Bool) (a : Nat → Byte) (rest : List Reply),
    s.busy = false → s.inputs = [.command (bit unit ++ (0b11 : BitVec 2))] → s.lc = .ready →
    s.replies = answers a 20 ++ rest →
    let t := tempFormula s.coeffs (a 18 ++ a 19)
    let p := pcompFormula s.coeffs (a 8 ++ a 9) (a 18 ++ a 19)
    let k := correctionFormula s.coeffs.c6 t p
    ∃ c u, run 23 s =
      .next { s with d1 := a 8 ++ a 9, d2 := a 18 ++ a 19, hi := a 18, temp := t, tcorr := t - k.1,
                     pcomp := p, pcorr := p - k.2, res := if unit then p * 75006 else p - k.2,
                     rkind := if unit then .pressureMmhg else .pressureMbar, err := .none,
                     trace := s.trace ++ acqEvents s.par s.par.acqP a 0 ++
                       acqEvents s.par s.par.acqT a 10,
                     inputs := [], replies := rest, cur := c, upc := u }

/-- R130, R131: a query in `Uninitialized` fails at its first micro-operation: only `ERR` is changed, no
request is issued, and the block is idle again. -/
def Obligations.QueryBeforeInitFails : Prop :=
  ∀ (s : State) (w : BitVec 3), s.busy = false → s.inputs = [.command w] → isQuery w →
    s.lc = .uninitialized →
    ∃ c u, run 2 s = .next { s with err := .uninit, inputs := [], cur := c, upc := u }

/-- R115, R127: a query computes from the coefficients and from what the sensor answers in this query alone:
two idle blocks that agree on those, and on their parameters, end with the same result, whatever earlier
commands left in every other register. -/
def Obligations.NoCachingAcrossQueries : Prop :=
  ∀ (s s' : State) (w : BitVec 3) (a : Nat → Byte) (n : Nat), isQuery w →
    n = lastIndex (cmdOp w) + 2 →
    s.busy = false → s'.busy = false → s.inputs = [.command w] → s'.inputs = [.command w] →
    s.lc = .ready → s'.lc = .ready → s.coeffs = s'.coeffs → s.par = s'.par →
    s.replies = answers a 20 → s'.replies = answers a 20 →
    ∃ t t' events, run n s = .next t ∧ run n s' = .next t' ∧
      t.res = t'.res ∧ t.temp = t'.temp ∧ t.rkind = t'.rkind ∧ t.err = t'.err ∧
      (cmdOp w = .getp → t.tcorr = t'.tcorr ∧ t.pcomp = t'.pcomp ∧ t.pcorr = t'.pcorr) ∧
      t.trace = s.trace ++ events ∧ t'.trace = s'.trace ++ events

/-! ### Hardware reset -/

/-- R36: what the spec says of the state right after hardware reset. -/
def Obligations.StateAfterReset : Prop :=
  State.reset.lc = .uninitialized ∧ State.reset.busy = false ∧ State.reset.rkind = .none ∧
  State.reset.err = .none ∧ State.reset.auxen = false ∧ State.reset.trace = []

/-- R144: in every state `RST` puts `LC`, `BUSY`, `AUXEN`, `ERR`, `RKIND` to their reset values, empties the
trace and leaves the parameters, `AUX_PIN` among them. -/
def Obligations.HardwareReset : Prop :=
  ∀ s : State, ∃ t, exec .rst s = .next t ∧ t.lc = .uninitialized ∧ t.busy = false ∧
    t.auxen = false ∧ t.err = .none ∧ t.rkind = .none ∧ t.trace = [] ∧ t.par = s.par

/-- R146: `RST` does not reach the outside. What the host does next and what the collaborators answer next are as
before, but for a request of the running command that was never going to be completed, which is forgotten. Which
answers stay, and when a request counts as outstanding, are the model's choices (log 3, log 5, log 14). -/
def Obligations.HardwareResetLeavesTheOutside : Prop :=
  ∀ s : State, ∃ t, exec .rst s = .next t ∧ t.inputs = s.inputs ∧ t.drawn = s.drawn ∧
    (∀ i rest, StandsAt s i → isPortRequest i = true → s.replies = .never :: rest → t.replies = rest) ∧
    (¬(∃ i rest, StandsAt s i ∧ isPortRequest i = true ∧ s.replies = .never :: rest) →
      t.replies = s.replies)

/-- R133, R145: a hardware reset that coincides with anything wins, whether the block is idle or busy, and the
running command is abandoned at once. The list of inputs is the model's (log 5). -/
def Obligations.HardwareResetWins : Prop :=
  ∀ (s : State) (rest : List HostInput), s.inputs = .reset :: rest →
    ∃ t, step s = .next t ∧ exec .rst { s with inputs := rest } = .next t ∧
      t.busy = false ∧ t.lc = .uninitialized ∧ t.trace = [] ∧ t.inputs = rest

/-! ### Invariants and whole-machine rules -/

/-- The invariant holds right after hardware reset, for every instance, whatever the outside will do, and for every
value of the registers the reset leaves without one (log 6). -/
def Obligations.InvariantAtReset : Prop :=
  ∀ (p : Params) (epoch drawn : Nat) (inputs : List HostInput) (replies : List Reply),
    Inv { State.initial p epoch with inputs := inputs, replies := replies, drawn := drawn } ∧
    TraceSync { State.initial p epoch with inputs := inputs, replies := replies, drawn := drawn }

/-- From every state of the invariant the step answers a next state, and the invariant holds of it: the block
never stops (a block whose request is not answered steps to itself, log 4), and a query past its check always
computes from coefficients `DEC` has written. -/
def Obligations.StepKeepsInvariant : Prop :=
  ∀ s : State, Inv s → ∃ t, step s = .next t ∧ Inv t

/-- While a command runs, the trace ends with the events of its micro-operations so far, and every step keeps
this. -/
def Obligations.StepKeepsTheTraceInOrder : Prop :=
  ∀ s t : State, TraceSync s → step s = .next t → TraceSync t

/-- R84: every transaction is directly preceded by the reset sequence, as an invariant of every step, which holds
right after hardware reset. The premise `firstBytesDistinct` on the parameters: no other byte the block sends looks
like the first byte of a calibration or acquisition command (it holds of the default patterns). -/
def Obligations.EveryTransactionIsResetFirst : Prop :=
  (∀ s t : State, firstBytesDistinct s.par = true → TraceSync s →
    transactionsResetFirst s.par s.trace → step s = .next t →
    firstBytesDistinct t.par = true ∧ TraceSync t ∧ transactionsResetFirst t.par t.trace) ∧
  (∀ (p : Params) (epoch : Nat), Inv (State.initial p epoch) ∧ TraceSync (State.initial p epoch) ∧
    transactionsResetFirst p (State.initial p epoch).trace)

/-- R84, R149: so it is in every run from hardware reset, whatever the host does and the collaborators answer, and
the run never stops. The premise `firstBytesDistinct` is that of `EveryTransactionIsResetFirst`. -/
def Obligations.RunsResetBeforeEveryTransaction : Prop :=
  ∀ (p : Params) (inputs : List HostInput) (replies : List Reply) (n : Nat),
    firstBytesDistinct p = true →
    ∃ t, run n { State.initial p 0 with inputs := inputs, replies := replies } = .next t ∧
      transactionsResetFirst p t.trace

/-- R85: every byte of a command pattern is sent while clock mode A is selected, and every byte read is
received while clock mode B is. -/
def Obligations.ClockModeDiscipline : Prop :=
  ∀ s : State, TraceSync s →
    (∀ b, StandsAt s (.tx b) → lastMode s.trace = some .a) ∧
    (StandsAt s .rx → lastMode s.trace = some .b)

/-- R41, R52: no step changes a parameter, the pattern ROM among them, and the step is that of the function that
takes the parameters as its argument, on the state without them (log 2). -/
def Obligations.NoStepChangesTheRom : Prop :=
  (∀ s t : State, step s = .next t → t.par = s.par ∧ t.par.rom = s.par.rom) ∧
  (∀ (p : Params) (b : Block) (t : State), step { b with par := p } = .next t ↔
    ∃ b', stepWith p b = .next b' ∧ t = { b' with par := p })

/-- R23, R24: apart from hardware reset, only the first and the last micro-operation of `INIT` change `LC`, and
only the last changes a coefficient. -/
def Obligations.OnlyInitChangesTheLifecycle : Prop :=
  ∀ s t : State, step s = .next t → s.inputs.head? ≠ some .reset →
    (t.lc ≠ s.lc → s.busy = true ∧ cmdOp s.cur = .init ∧ (s.upc.toNat = 0 ∨ s.upc.toNat = 42)) ∧
    (t.coeffs ≠ s.coeffs → s.busy = true ∧ cmdOp s.cur = .init ∧ s.upc.toNat = 42)

/-- R30: nothing clears `AUXEN` but hardware reset. -/
def Obligations.OnlyHardwareResetClearsAuxen : Prop :=
  ∀ s t : State, step s = .next t → s.auxen = true → t.auxen = false →
    s.inputs.head? = some .reset

/-- R157: apart from hardware reset, the result registers change only in a query's last micro-operation. -/
def Obligations.ResultsChangeOnlyInTheLastStep : Prop :=
  ∀ s t : State, step s = .next t → s.inputs.head? ≠ some .reset →
    (t.temp, t.tcorr, t.pcomp, t.pcorr, t.res, t.rkind) ≠
      (s.temp, s.tcorr, s.pcomp, s.pcorr, s.res, s.rkind) →
    s.busy = true ∧ isQuery s.cur ∧ s.upc.toNat = lastIndex (cmdOp s.cur) ∧ t.busy = false

/-- R49, R118: apart from hardware reset, a step adds at most one event at the end of the trace and takes none
away. -/
def Obligations.AtMostOneEventAStep : Prop :=
  ∀ s t : State, step s = .next t → s.inputs.head? ≠ some .reset →
    t.trace = s.trace ∨ ∃ e, t.trace = s.trace ++ [e]

/-- R25, R26: `WD[i]` is written by `INIT`'s reads only, `D1` by `GETP`'s pressure read, `D2` by a query's
temperature read; apart from hardware reset nothing else writes them. -/
def Obligations.RawRegistersAreWrittenByTheirReads : Prop :=
  ∀ s t : State, step s = .next t → s.inputs.head? ≠ some .reset →
    (∀ i : Fin 4, t.wd.get i ≠ s.wd.get i →
      s.busy = true ∧ cmdOp s.cur = .init ∧ s.upc.toNat = 14 + 9 * i.val) ∧
    (t.d1 ≠ s.d1 → s.busy = true ∧ cmdOp s.cur = .getp ∧ s.upc.toNat = 10) ∧
    (t.d2 ≠ s.d2 → s.busy = true ∧
      ((cmdOp s.cur = .gett ∧ s.upc.toNat = 10) ∨ (cmdOp s.cur = .getp ∧ s.upc.toNat = 20)))

/-- R29, R132: apart from hardware reset, `ERR` changes only when a command completes, and every command that
completes writes it: `Uninit` when a query found `LC` = Uninitialized and `None` otherwise. -/
def Obligations.ErrIsWrittenAtCompletion : Prop :=
  ∀ s t : State, step s = .next t → s.inputs.head? ≠ some .reset →
    (t.err ≠ s.err → s.busy = true ∧ t.busy = false) ∧
    (s.busy = true → t.busy = false →
      t.err = if isQuery s.cur ∧ s.upc.toNat = 0 ∧ s.lc = .uninitialized then ErrCode.uninit
        else ErrCode.none)

/-- R21, R22: what an outside observer sees of two states is the same exactly when their traces and the registers
the host can read agree; so it does not depend on the registers the host cannot read. The host reads `LC`,
`RKIND` and `ERR` as the numbers of R23, R28 and R29, and every other register as it is. -/
def Obligations.HiddenRegistersAreNotObserved : Prop :=
  (∀ s t : State, s.observe = t.observe ↔
    s.trace = t.trace ∧ s.lc = t.lc ∧ s.coeffs = t.coeffs ∧ s.temp = t.temp ∧ s.tcorr = t.tcorr ∧
    s.pcomp = t.pcomp ∧ s.pcorr = t.pcorr ∧ s.res = t.res ∧ s.rkind = t.rkind ∧ s.err = t.err ∧
    s.auxen = t.auxen ∧ s.busy = t.busy) ∧
  (∀ s : State, s.observe.1 = s.trace ∧ s.hostView.lc.toNat = lcCode s.lc ∧
    s.hostView.rkind.toNat = rkindCode s.rkind ∧ s.hostView.err.toNat = errCode s.err ∧
    s.hostView.coeffs = s.coeffs ∧ s.hostView.temp = s.temp ∧ s.hostView.tcorr = s.tcorr ∧
    s.hostView.pcomp = s.pcomp ∧ s.hostView.pcorr = s.pcorr ∧ s.hostView.res = s.res ∧
    s.hostView.auxen = s.auxen ∧ s.hostView.busy = s.busy ∧ s.observe.2 = s.hostView) ∧
  (∀ (s : State) (wd : RawWords) (d1 d2 : RawWord) (cur : BitVec 3) (upc : BitVec 6) (hi : Byte),
    { s with wd := wd, d1 := d1, d2 := d2, cur := cur, upc := upc, hi := hi }.observe = s.observe)
end

