-- ==== Sys2Proof/Laws/Decode.lean ====
section
/-! SUPPORT. Small laws of the fields of words and of the micro-programs. -/

namespace Sys2Proof

open Sys2Proof.Machine

/-- The low field of a concatenation. -/
@[simp] theorem append_low {m n : Nat} (a : BitVec m) (b : BitVec n) :
    (a ++ b).extractLsb' 0 n = b := by
  ext i hi
  simp [BitVec.getElem_extractLsb', BitVec.getLsbD_append, hi]

/-- The high field of a concatenation. -/
@[simp] theorem append_high {m n : Nat} (a : BitVec m) (b : BitVec n) :
    (a ++ b).extractLsb' n m = a := by
  ext i hi
  simp [BitVec.getElem_extractLsb', BitVec.getLsbD_append, hi]

/-- A word is the concatenation of its fields. -/
theorem append_fields {m n : Nat} (w : BitVec (m + n)) :
    w.extractLsb' n m ++ w.extractLsb' 0 n = w := by
  ext i hi
  simp only [BitVec.getElem_append, BitVec.getElem_extractLsb']
  split <;> rename_i h
  · rw [Nat.zero_add, BitVec.getLsbD_eq_getElem]
  · rw [show n + (i - n) = i by omega, BitVec.getLsbD_eq_getElem]

theorem append_inj {m n : Nat} {a c : BitVec m} {b d : BitVec n} :
    a ++ b = c ++ d ↔ a = c ∧ b = d := by
  constructor
  · intro h
    exact ⟨by rw [← append_high a b, h, append_high], by rw [← append_low a b, h, append_low]⟩
  · rintro ⟨rfl, rfl⟩; rfl

theorem controlWord_cur (cur : BitVec 3) (upc : BitVec 6) :
    (controlWord cur upc).extractLsb' 6 3 = cur := append_high cur upc

theorem controlWord_upc (cur : BitVec 3) (upc : BitVec 6) :
    (controlWord cur upc).extractLsb' 0 6 = upc := append_low cur upc

/-- The two bits of the operation code of a transport request (R59). -/
theorem transportWord_op (o : BitVec 2) (b : Byte) :
    (transportWord o b).getLsbD 9 = o.getLsbD 1 ∧ (transportWord o b).getLsbD 8 = o.getLsbD 0 := by
  unfold transportWord
  constructor <;> rw [BitVec.getLsbD_append] <;> rfl

/-- The eight command words. -/
theorem command_cases (w : BitVec 3) :
    w = 0 ∨ w = 1 ∨ w = 2 ∨ w = 3 ∨ w = 4 ∨ w = 5 ∨ w = 6 ∨ w = 7 := by
  revert w; decide

/-- A command word is its unit bit and its operation code (R56). -/
theorem cur_eq (cur : BitVec 3) :
    cur = bit (cmdUnit cur) ++
      (match cmdOp cur with | .init => 0b00 | .sreset => 0b01 | .gett => 0b10 | .getp => 0b11 : BitVec 2) := by
  revert cur; decide

/-- The control-state view reads the micro-program at the control state (R55). -/
theorem decodeU_controlWord (p : Params) (cur : BitVec 3) (upc : BitVec 6) :
    decodeU p (controlWord cur upc) =
      match microOp p cur upc with
      | some i => .ok i
      | none => .error .noMicroOperation := by
  cases h : microOp p cur upc <;> simp [decodeU, controlWord_cur, controlWord_upc, h]

/-- The lengths of the four micro-programs (R125). -/
theorem program_length (p : Params) (cur : BitVec 3) :
    (program p cur).length = lastIndex (cmdOp cur) + 1 := by
  unfold program
  cases cmdOp cur <;> rfl

/-- There is a micro-operation exactly up to the last index (R31). -/
theorem slotAt_isSome (p : Params) (cur : BitVec 3) (upc : BitVec 6) :
    (slotAt p cur upc).isSome = decide (upc.toNat ≤ lastIndex (cmdOp cur)) := by
  rw [slotAt, Bool.eq_iff_iff, Option.isSome_iff_ne_none, ne_eq, List.getElem?_eq_none_iff,
    program_length, decide_eq_true_iff]
  omega

/-- Where there is a micro-operation, the control state is inside its micro-program (R31). -/
theorem upc_le_of_microOp {p : Params} {cur : BitVec 3} {upc : BitVec 6} {i : Instr}
    (h : microOp p cur upc = some i) : upc.toNat ≤ lastIndex (cmdOp cur) := by
  have hs := slotAt_isSome p cur upc
  by_contra hl
  simp only [hl, decide_false, Option.isSome_eq_false_iff, Option.isNone_iff_eq_none] at hs
  simp [microOp, hs] at h

theorem lastIndex_le (o : CmdOp) : lastIndex o ≤ 42 := by cases o <;> decide

theorem microOp_eq_some {p : Params} {cur : BitVec 3} {upc : BitVec 6} {i : Instr} :
    microOp p cur upc = some i ↔ ∃ slot, slotAt p cur upc = some slot ∧ slot.instr = i := by
  simp [microOp]

end Sys2Proof
end

