-- ==== Sys2Proof/Laws/MicroProgram.lean ====
section
/-! SUPPORT. The four micro-programs written out, and what stands where in them. -/

namespace Sys2Proof.Machine

variable {p : Params} {cur : BitVec 3}

theorem program_init (h : cmdOp cur = .init) : program p cur =
    [.op .cfg, .op .auxon,
     .op .modeA, .op (.tx p.resetSeq.b0), .op (.tx p.resetSeq.b1), .op (.tx p.resetSeq.b2),
     .op .modeA, .op (.tx p.resetSeq.b0), .op (.tx p.resetSeq.b1), .op (.tx p.resetSeq.b2),
     .op (.tx p.calCmd0.b0), .op (.tx p.calCmd0.b1), .op .modeB, .rxh, .rxl (.wd 0),
     .op .modeA, .op (.tx p.resetSeq.b0), .op (.tx p.resetSeq.b1), .op (.tx p.resetSeq.b2),
     .op (.tx p.calCmd1.b0), .op (.tx p.calCmd1.b1), .op .modeB, .rxh, .rxl (.wd 1),
     .op .modeA, .op (.tx p.resetSeq.b0), .op (.tx p.resetSeq.b1), .op (.tx p.resetSeq.b2),
     .op (.tx p.calCmd2.b0), .op (.tx p.calCmd2.b1), .op .modeB, .rxh, .rxl (.wd 2),
     .op .modeA, .op (.tx p.resetSeq.b0), .op (.tx p.resetSeq.b1), .op (.tx p.resetSeq.b2),
     .op (.tx p.calCmd3.b0), .op (.tx p.calCmd3.b1), .op .modeB, .rxh, .rxl (.wd 3),
     .op (.dec (cmdUnit cur))] := by
  unfold program; rw [h]; rfl

theorem program_sreset (h : cmdOp cur = .sreset) : program p cur =
    [.op .modeA, .op (.tx p.resetSeq.b0), .op (.tx p.resetSeq.b1), .op (.tx p.resetSeq.b2)] := by
  unfold program; rw [h]; rfl

theorem program_gett (h : cmdOp cur = .gett) : program p cur =
    [.op (.chk (cmdUnit cur) false),
     .op .modeA, .op (.tx p.resetSeq.b0), .op (.tx p.resetSeq.b1), .op (.tx p.resetSeq.b2),
     .op (.tx p.acqT.b0), .op (.tx p.acqT.b1), .op (.wait p.convDelay), .op .modeB, .rxh, .rxl .d2,
     .op (.cmpt (cmdUnit cur))] := by
  unfold program; rw [h]; rfl

theorem program_getp (h : cmdOp cur = .getp) : program p cur =
    [.op (.chk (cmdUnit cur) true),
     .op .modeA, .op (.tx p.resetSeq.b0), .op (.tx p.resetSeq.b1), .op (.tx p.resetSeq.b2),
     .op (.tx p.acqP.b0), .op (.tx p.acqP.b1), .op (.wait p.convDelay), .op .modeB, .rxh, .rxl .d1,
     .op .modeA, .op (.tx p.resetSeq.b0), .op (.tx p.resetSeq.b1), .op (.tx p.resetSeq.b2),
     .op (.tx p.acqT.b0), .op (.tx p.acqT.b1), .op (.wait p.convDelay), .op .modeB, .rxh, .rxl .d2,
     .op (.cmpp (unitOf (cmdUnit cur)))] := by
  unfold program; rw [h]; rfl

/-- What stands at an index, independent of the parameters. -/
inductive Place where
  | cfg | auxon | modeA | modeB | tx | wait | chk | dec | cmpt | cmpp | rxh
  | rxl (dst : RawReg)
  deriving DecidableEq, Repr

/-- The place an entry of a micro-program makes; entries of other instructions do not occur. -/
def Slot.place : Slot → Option Place
  | .op .cfg => some .cfg
  | .op .auxon => some .auxon
  | .op .modeA => some .modeA
  | .op .modeB => some .modeB
  | .op (.tx _) => some .tx
  | .op (.wait _) => some .wait
  | .op (.chk _ _) => some .chk
  | .op (.dec _) => some .dec
  | .op (.cmpt _) => some .cmpt
  | .op (.cmpp _) => some .cmpp
  | .op _ => none
  | .rxh => some .rxh
  | .rxl dst => some (.rxl dst)

/-- The places of the reset sequence. -/
def resetPlaces : List Place := [.modeA, .tx, .tx, .tx]

/-- The places of the micro-programs, without the parameters. -/
def places : CmdOp → List Place
  | .init =>
    [.cfg, .auxon] ++ resetPlaces ++ resetPlaces ++ [.tx, .tx, .modeB, .rxh, .rxl (.wd 0)] ++
    resetPlaces ++ [.tx, .tx, .modeB, .rxh, .rxl (.wd 1)] ++
    resetPlaces ++ [.tx, .tx, .modeB, .rxh, .rxl (.wd 2)] ++
    resetPlaces ++ [.tx, .tx, .modeB, .rxh, .rxl (.wd 3)] ++ [.dec]
  | .sreset => resetPlaces
  | .gett => [.chk] ++ resetPlaces ++ [.tx, .tx, .wait, .modeB, .rxh, .rxl .d2] ++ [.cmpt]
  | .getp =>
    [.chk] ++ resetPlaces ++ [.tx, .tx, .wait, .modeB, .rxh, .rxl .d1] ++
    resetPlaces ++ [.tx, .tx, .wait, .modeB, .rxh, .rxl .d2] ++ [.cmpp]

theorem program_places (p : Params) (cur : BitVec 3) :
    (program p cur).map Slot.place = (places (cmdOp cur)).map some := by
  cases h : cmdOp cur
  · rw [program_init h]; rfl
  · rw [program_sreset h]; rfl
  · rw [program_gett h]; rfl
  · rw [program_getp h]; rfl

/-- An entry's place is fixed by the operation and the index alone, so a question about positions is a
question about `places`, which `decide` answers. -/
theorem place_of_slotAt {upc : BitVec 6} {slot : Slot} (h : slotAt p cur upc = some slot) :
    ∃ q, slot.place = some q ∧ (places (cmdOp cur))[upc.toNat]? = some q := by
  have hm := congrArg (fun l => l[upc.toNat]?) (program_places p cur)
  simp only [List.getElem?_map] at hm
  rw [slotAt] at h
  rw [h] at hm
  cases hq : (places (cmdOp cur))[upc.toNat]? with
  | none => simp [hq] at hm
  | some q => exact ⟨q, by simpa [hq] using hm, rfl⟩

/-- A place occurs at an index of a micro-program. -/
theorem index_lt_of_place {o : CmdOp} {k : Nat} {q : Place} (h : (places o)[k]? = some q) :
    k < (places o).length := by
  by_contra hk
  simp [List.getElem?_eq_none (Nat.le_of_not_lt hk)] at h

end Sys2Proof.Machine
end

