-- ==== Sys2Proof/Laws/State.lean ====
section
/-! SUPPORT. One lemma per field per update of the state: what each shared operation writes and what it leaves. -/

namespace Sys2Proof.Machine

variable (s : State)

/-! ### emit: `emit` writes the trace and nothing else (R20). -/

@[simp] theorem State.emit_lc (e : Event) : (s.emit e).lc = s.lc := rfl
@[simp] theorem State.emit_coeffs (e : Event) : (s.emit e).coeffs = s.coeffs := rfl
@[simp] theorem State.emit_wd (e : Event) : (s.emit e).wd = s.wd := rfl
@[simp] theorem State.emit_d1 (e : Event) : (s.emit e).d1 = s.d1 := rfl
@[simp] theorem State.emit_d2 (e : Event) : (s.emit e).d2 = s.d2 := rfl
@[simp] theorem State.emit_temp (e : Event) : (s.emit e).temp = s.temp := rfl
@[simp] theorem State.emit_tcorr (e : Event) : (s.emit e).tcorr = s.tcorr := rfl
@[simp] theorem State.emit_pcomp (e : Event) : (s.emit e).pcomp = s.pcomp := rfl
@[simp] theorem State.emit_pcorr (e : Event) : (s.emit e).pcorr = s.pcorr := rfl
@[simp] theorem State.emit_res (e : Event) : (s.emit e).res = s.res := rfl
@[simp] theorem State.emit_rkind (e : Event) : (s.emit e).rkind = s.rkind := rfl
@[simp] theorem State.emit_err (e : Event) : (s.emit e).err = s.err := rfl
@[simp] theorem State.emit_auxen (e : Event) : (s.emit e).auxen = s.auxen := rfl
@[simp] theorem State.emit_busy (e : Event) : (s.emit e).busy = s.busy := rfl
@[simp] theorem State.emit_cur (e : Event) : (s.emit e).cur = s.cur := rfl
@[simp] theorem State.emit_upc (e : Event) : (s.emit e).upc = s.upc := rfl
@[simp] theorem State.emit_hi (e : Event) : (s.emit e).hi = s.hi := rfl
@[simp] theorem State.emit_trace (e : Event) : (s.emit e).trace = s.trace ++ [e] := rfl
@[simp] theorem State.emit_par (e : Event) : (s.emit e).par = s.par := rfl
@[simp] theorem State.emit_inputs (e : Event) : (s.emit e).inputs = s.inputs := rfl
@[simp] theorem State.emit_replies (e : Event) : (s.emit e).replies = s.replies := rfl
@[simp] theorem State.emit_drawn (e : Event) : (s.emit e).drawn = s.drawn := rfl
@[simp] theorem State.emit_epoch (e : Event) : (s.emit e).epoch = s.epoch := rfl

/-! ### answered: An answer uses up one reply, or one free byte, and nothing else (log 3). -/

@[simp] theorem State.answered_lc : s.answered.lc = s.lc := by unfold State.answered; split <;> rfl
@[simp] theorem State.answered_coeffs : s.answered.coeffs = s.coeffs := by unfold State.answered; split <;> rfl
@[simp] theorem State.answered_wd : s.answered.wd = s.wd := by unfold State.answered; split <;> rfl
@[simp] theorem State.answered_d1 : s.answered.d1 = s.d1 := by unfold State.answered; split <;> rfl
@[simp] theorem State.answered_d2 : s.answered.d2 = s.d2 := by unfold State.answered; split <;> rfl
@[simp] theorem State.answered_temp : s.answered.temp = s.temp := by unfold State.answered; split <;> rfl
@[simp] theorem State.answered_tcorr : s.answered.tcorr = s.tcorr := by unfold State.answered; split <;> rfl
@[simp] theorem State.answered_pcomp : s.answered.pcomp = s.pcomp := by unfold State.answered; split <;> rfl
@[simp] theorem State.answered_pcorr : s.answered.pcorr = s.pcorr := by unfold State.answered; split <;> rfl
@[simp] theorem State.answered_res : s.answered.res = s.res := by unfold State.answered; split <;> rfl
@[simp] theorem State.answered_rkind : s.answered.rkind = s.rkind := by unfold State.answered; split <;> rfl
@[simp] theorem State.answered_err : s.answered.err = s.err := by unfold State.answered; split <;> rfl
@[simp] theorem State.answered_auxen : s.answered.auxen = s.auxen := by unfold State.answered; split <;> rfl
@[simp] theorem State.answered_busy : s.answered.busy = s.busy := by unfold State.answered; split <;> rfl
@[simp] theorem State.answered_cur : s.answered.cur = s.cur := by unfold State.answered; split <;> rfl
@[simp] theorem State.answered_upc : s.answered.upc = s.upc := by unfold State.answered; split <;> rfl
@[simp] theorem State.answered_hi : s.answered.hi = s.hi := by unfold State.answered; split <;> rfl
@[simp] theorem State.answered_trace : s.answered.trace = s.trace := by unfold State.answered; split <;> rfl
@[simp] theorem State.answered_par : s.answered.par = s.par := by unfold State.answered; split <;> rfl
@[simp] theorem State.answered_inputs : s.answered.inputs = s.inputs := by unfold State.answered; split <;> rfl
@[simp] theorem State.answered_epoch : s.answered.epoch = s.epoch := by unfold State.answered; split <;> rfl

/-! ### writeRaw: A raw-register write touches the raw registers only (R80). -/

@[simp] theorem State.writeRaw_lc (r : RawReg) (v : RawWord) : (s.writeRaw r v).lc = s.lc := by cases r <;> rfl
@[simp] theorem State.writeRaw_coeffs (r : RawReg) (v : RawWord) : (s.writeRaw r v).coeffs = s.coeffs := by cases r <;> rfl
@[simp] theorem State.writeRaw_temp (r : RawReg) (v : RawWord) : (s.writeRaw r v).temp = s.temp := by cases r <;> rfl
@[simp] theorem State.writeRaw_tcorr (r : RawReg) (v : RawWord) : (s.writeRaw r v).tcorr = s.tcorr := by cases r <;> rfl
@[simp] theorem State.writeRaw_pcomp (r : RawReg) (v : RawWord) : (s.writeRaw r v).pcomp = s.pcomp := by cases r <;> rfl
@[simp] theorem State.writeRaw_pcorr (r : RawReg) (v : RawWord) : (s.writeRaw r v).pcorr = s.pcorr := by cases r <;> rfl
@[simp] theorem State.writeRaw_res (r : RawReg) (v : RawWord) : (s.writeRaw r v).res = s.res := by cases r <;> rfl
@[simp] theorem State.writeRaw_rkind (r : RawReg) (v : RawWord) : (s.writeRaw r v).rkind = s.rkind := by cases r <;> rfl
@[simp] theorem State.writeRaw_err (r : RawReg) (v : RawWord) : (s.writeRaw r v).err = s.err := by cases r <;> rfl
@[simp] theorem State.writeRaw_auxen (r : RawReg) (v : RawWord) : (s.writeRaw r v).auxen = s.auxen := by cases r <;> rfl
@[simp] theorem State.writeRaw_busy (r : RawReg) (v : RawWord) : (s.writeRaw r v).busy = s.busy := by cases r <;> rfl
@[simp] theorem State.writeRaw_cur (r : RawReg) (v : RawWord) : (s.writeRaw r v).cur = s.cur := by cases r <;> rfl
@[simp] theorem State.writeRaw_upc (r : RawReg) (v : RawWord) : (s.writeRaw r v).upc = s.upc := by cases r <;> rfl
@[simp] theorem State.writeRaw_hi (r : RawReg) (v : RawWord) : (s.writeRaw r v).hi = s.hi := by cases r <;> rfl
@[simp] theorem State.writeRaw_trace (r : RawReg) (v : RawWord) : (s.writeRaw r v).trace = s.trace := by cases r <;> rfl
@[simp] theorem State.writeRaw_par (r : RawReg) (v : RawWord) : (s.writeRaw r v).par = s.par := by cases r <;> rfl
@[simp] theorem State.writeRaw_inputs (r : RawReg) (v : RawWord) : (s.writeRaw r v).inputs = s.inputs := by cases r <;> rfl
@[simp] theorem State.writeRaw_replies (r : RawReg) (v : RawWord) : (s.writeRaw r v).replies = s.replies := by cases r <;> rfl
@[simp] theorem State.writeRaw_drawn (r : RawReg) (v : RawWord) : (s.writeRaw r v).drawn = s.drawn := by cases r <;> rfl
@[simp] theorem State.writeRaw_epoch (r : RawReg) (v : RawWord) : (s.writeRaw r v).epoch = s.epoch := by cases r <;> rfl

/-! ### receive: A received byte touches `HI` and the raw registers only (R80). -/

@[simp] theorem State.receive_lc (t : RxTarget) (b : Byte) : (s.receive t b).lc = s.lc := by cases t <;> simp [State.receive]
@[simp] theorem State.receive_coeffs (t : RxTarget) (b : Byte) : (s.receive t b).coeffs = s.coeffs := by cases t <;> simp [State.receive]
@[simp] theorem State.receive_temp (t : RxTarget) (b : Byte) : (s.receive t b).temp = s.temp := by cases t <;> simp [State.receive]
@[simp] theorem State.receive_tcorr (t : RxTarget) (b : Byte) : (s.receive t b).tcorr = s.tcorr := by cases t <;> simp [State.receive]
@[simp] theorem State.receive_pcomp (t : RxTarget) (b : Byte) : (s.receive t b).pcomp = s.pcomp := by cases t <;> simp [State.receive]
@[simp] theorem State.receive_pcorr (t : RxTarget) (b : Byte) : (s.receive t b).pcorr = s.pcorr := by cases t <;> simp [State.receive]
@[simp] theorem State.receive_res (t : RxTarget) (b : Byte) : (s.receive t b).res = s.res := by cases t <;> simp [State.receive]
@[simp] theorem State.receive_rkind (t : RxTarget) (b : Byte) : (s.receive t b).rkind = s.rkind := by cases t <;> simp [State.receive]
@[simp] theorem State.receive_err (t : RxTarget) (b : Byte) : (s.receive t b).err = s.err := by cases t <;> simp [State.receive]
@[simp] theorem State.receive_auxen (t : RxTarget) (b : Byte) : (s.receive t b).auxen = s.auxen := by cases t <;> simp [State.receive]
@[simp] theorem State.receive_busy (t : RxTarget) (b : Byte) : (s.receive t b).busy = s.busy := by cases t <;> simp [State.receive]
@[simp] theorem State.receive_cur (t : RxTarget) (b : Byte) : (s.receive t b).cur = s.cur := by cases t <;> simp [State.receive]
@[simp] theorem State.receive_upc (t : RxTarget) (b : Byte) : (s.receive t b).upc = s.upc := by cases t <;> simp [State.receive]
@[simp] theorem State.receive_trace (t : RxTarget) (b : Byte) : (s.receive t b).trace = s.trace := by cases t <;> simp [State.receive]
@[simp] theorem State.receive_par (t : RxTarget) (b : Byte) : (s.receive t b).par = s.par := by cases t <;> simp [State.receive]
@[simp] theorem State.receive_inputs (t : RxTarget) (b : Byte) : (s.receive t b).inputs = s.inputs := by cases t <;> simp [State.receive]
@[simp] theorem State.receive_replies (t : RxTarget) (b : Byte) : (s.receive t b).replies = s.replies := by cases t <;> simp [State.receive]
@[simp] theorem State.receive_drawn (t : RxTarget) (b : Byte) : (s.receive t b).drawn = s.drawn := by cases t <;> simp [State.receive]
@[simp] theorem State.receive_epoch (t : RxTarget) (b : Byte) : (s.receive t b).epoch = s.epoch := by cases t <;> simp [State.receive]

/-! ### bracketWrites: The bracketed writes of R125 touch `LC` and `ERR` only. -/

@[simp] theorem State.bracketWrites_coeffs : s.bracketWrites.coeffs = s.coeffs := by unfold State.bracketWrites; split <;> rfl
@[simp] theorem State.bracketWrites_wd : s.bracketWrites.wd = s.wd := by unfold State.bracketWrites; split <;> rfl
@[simp] theorem State.bracketWrites_d1 : s.bracketWrites.d1 = s.d1 := by unfold State.bracketWrites; split <;> rfl
@[simp] theorem State.bracketWrites_d2 : s.bracketWrites.d2 = s.d2 := by unfold State.bracketWrites; split <;> rfl
@[simp] theorem State.bracketWrites_temp : s.bracketWrites.temp = s.temp := by unfold State.bracketWrites; split <;> rfl
@[simp] theorem State.bracketWrites_tcorr : s.bracketWrites.tcorr = s.tcorr := by unfold State.bracketWrites; split <;> rfl
@[simp] theorem State.bracketWrites_pcomp : s.bracketWrites.pcomp = s.pcomp := by unfold State.bracketWrites; split <;> rfl
@[simp] theorem State.bracketWrites_pcorr : s.bracketWrites.pcorr = s.pcorr := by unfold State.bracketWrites; split <;> rfl
@[simp] theorem State.bracketWrites_res : s.bracketWrites.res = s.res := by unfold State.bracketWrites; split <;> rfl
@[simp] theorem State.bracketWrites_rkind : s.bracketWrites.rkind = s.rkind := by unfold State.bracketWrites; split <;> rfl
@[simp] theorem State.bracketWrites_auxen : s.bracketWrites.auxen = s.auxen := by unfold State.bracketWrites; split <;> rfl
@[simp] theorem State.bracketWrites_busy : s.bracketWrites.busy = s.busy := by unfold State.bracketWrites; split <;> rfl
@[simp] theorem State.bracketWrites_cur : s.bracketWrites.cur = s.cur := by unfold State.bracketWrites; split <;> rfl
@[simp] theorem State.bracketWrites_upc : s.bracketWrites.upc = s.upc := by unfold State.bracketWrites; split <;> rfl
@[simp] theorem State.bracketWrites_hi : s.bracketWrites.hi = s.hi := by unfold State.bracketWrites; split <;> rfl
@[simp] theorem State.bracketWrites_trace : s.bracketWrites.trace = s.trace := by unfold State.bracketWrites; split <;> rfl
@[simp] theorem State.bracketWrites_par : s.bracketWrites.par = s.par := by unfold State.bracketWrites; split <;> rfl
@[simp] theorem State.bracketWrites_inputs : s.bracketWrites.inputs = s.inputs := by unfold State.bracketWrites; split <;> rfl
@[simp] theorem State.bracketWrites_replies : s.bracketWrites.replies = s.replies := by unfold State.bracketWrites; split <;> rfl
@[simp] theorem State.bracketWrites_drawn : s.bracketWrites.drawn = s.drawn := by unfold State.bracketWrites; split <;> rfl
@[simp] theorem State.bracketWrites_epoch : s.bracketWrites.epoch = s.epoch := by unfold State.bracketWrites; split <;> rfl

/-! ### complete: Completion touches the control state, `LC` and `ERR` only (R118). -/

@[simp] theorem State.complete_coeffs : s.complete.coeffs = s.coeffs := by unfold State.complete; split <;> (try split) <;> simp
@[simp] theorem State.complete_wd : s.complete.wd = s.wd := by unfold State.complete; split <;> (try split) <;> simp
@[simp] theorem State.complete_d1 : s.complete.d1 = s.d1 := by unfold State.complete; split <;> (try split) <;> simp
@[simp] theorem State.complete_d2 : s.complete.d2 = s.d2 := by unfold State.complete; split <;> (try split) <;> simp
@[simp] theorem State.complete_temp : s.complete.temp = s.temp := by unfold State.complete; split <;> (try split) <;> simp
@[simp] theorem State.complete_tcorr : s.complete.tcorr = s.tcorr := by unfold State.complete; split <;> (try split) <;> simp
@[simp] theorem State.complete_pcomp : s.complete.pcomp = s.pcomp := by unfold State.complete; split <;> (try split) <;> simp
@[simp] theorem State.complete_pcorr : s.complete.pcorr = s.pcorr := by unfold State.complete; split <;> (try split) <;> simp
@[simp] theorem State.complete_res : s.complete.res = s.res := by unfold State.complete; split <;> (try split) <;> simp
@[simp] theorem State.complete_rkind : s.complete.rkind = s.rkind := by unfold State.complete; split <;> (try split) <;> simp
@[simp] theorem State.complete_auxen : s.complete.auxen = s.auxen := by unfold State.complete; split <;> (try split) <;> simp
@[simp] theorem State.complete_cur : s.complete.cur = s.cur := by unfold State.complete; split <;> (try split) <;> simp
@[simp] theorem State.complete_hi : s.complete.hi = s.hi := by unfold State.complete; split <;> (try split) <;> simp
@[simp] theorem State.complete_trace : s.complete.trace = s.trace := by unfold State.complete; split <;> (try split) <;> simp
@[simp] theorem State.complete_par : s.complete.par = s.par := by unfold State.complete; split <;> (try split) <;> simp
@[simp] theorem State.complete_inputs : s.complete.inputs = s.inputs := by unfold State.complete; split <;> (try split) <;> simp
@[simp] theorem State.complete_replies : s.complete.replies = s.replies := by unfold State.complete; split <;> (try split) <;> simp
@[simp] theorem State.complete_drawn : s.complete.drawn = s.drawn := by unfold State.complete; split <;> (try split) <;> simp
@[simp] theorem State.complete_epoch : s.complete.epoch = s.epoch := by unfold State.complete; split <;> (try split) <;> simp

/-! ### accept: Acceptance changes no other register (R117). -/

@[simp] theorem State.accept_lc (c : BitVec 3) : (s.accept c).lc = s.lc := by unfold State.accept; split <;> rfl
@[simp] theorem State.accept_coeffs (c : BitVec 3) : (s.accept c).coeffs = s.coeffs := by unfold State.accept; split <;> rfl
@[simp] theorem State.accept_wd (c : BitVec 3) : (s.accept c).wd = s.wd := by unfold State.accept; split <;> rfl
@[simp] theorem State.accept_d1 (c : BitVec 3) : (s.accept c).d1 = s.d1 := by unfold State.accept; split <;> rfl
@[simp] theorem State.accept_d2 (c : BitVec 3) : (s.accept c).d2 = s.d2 := by unfold State.accept; split <;> rfl
@[simp] theorem State.accept_temp (c : BitVec 3) : (s.accept c).temp = s.temp := by unfold State.accept; split <;> rfl
@[simp] theorem State.accept_tcorr (c : BitVec 3) : (s.accept c).tcorr = s.tcorr := by unfold State.accept; split <;> rfl
@[simp] theorem State.accept_pcomp (c : BitVec 3) : (s.accept c).pcomp = s.pcomp := by unfold State.accept; split <;> rfl
@[simp] theorem State.accept_pcorr (c : BitVec 3) : (s.accept c).pcorr = s.pcorr := by unfold State.accept; split <;> rfl
@[simp] theorem State.accept_res (c : BitVec 3) : (s.accept c).res = s.res := by unfold State.accept; split <;> rfl
@[simp] theorem State.accept_rkind (c : BitVec 3) : (s.accept c).rkind = s.rkind := by unfold State.accept; split <;> rfl
@[simp] theorem State.accept_err (c : BitVec 3) : (s.accept c).err = s.err := by unfold State.accept; split <;> rfl
@[simp] theorem State.accept_auxen (c : BitVec 3) : (s.accept c).auxen = s.auxen := by unfold State.accept; split <;> rfl
@[simp] theorem State.accept_hi (c : BitVec 3) : (s.accept c).hi = s.hi := by unfold State.accept; split <;> rfl
@[simp] theorem State.accept_trace (c : BitVec 3) : (s.accept c).trace = s.trace := by unfold State.accept; split <;> rfl
@[simp] theorem State.accept_par (c : BitVec 3) : (s.accept c).par = s.par := by unfold State.accept; split <;> rfl
@[simp] theorem State.accept_inputs (c : BitVec 3) : (s.accept c).inputs = s.inputs := by unfold State.accept; split <;> rfl
@[simp] theorem State.accept_replies (c : BitVec 3) : (s.accept c).replies = s.replies := by unfold State.accept; split <;> rfl
@[simp] theorem State.accept_drawn (c : BitVec 3) : (s.accept c).drawn = s.drawn := by unfold State.accept; split <;> rfl
@[simp] theorem State.accept_epoch (c : BitVec 3) : (s.accept c).epoch = s.epoch := by unfold State.accept; split <;> rfl

/-! ### raiseUninit: The error entry changes `ERR` and `BUSY` only (R131). -/

@[simp] theorem State.raiseUninit_lc : s.raiseUninit.lc = s.lc := rfl
@[simp] theorem State.raiseUninit_coeffs : s.raiseUninit.coeffs = s.coeffs := rfl
@[simp] theorem State.raiseUninit_wd : s.raiseUninit.wd = s.wd := rfl
@[simp] theorem State.raiseUninit_d1 : s.raiseUninit.d1 = s.d1 := rfl
@[simp] theorem State.raiseUninit_d2 : s.raiseUninit.d2 = s.d2 := rfl
@[simp] theorem State.raiseUninit_temp : s.raiseUninit.temp = s.temp := rfl
@[simp] theorem State.raiseUninit_tcorr : s.raiseUninit.tcorr = s.tcorr := rfl
@[simp] theorem State.raiseUninit_pcomp : s.raiseUninit.pcomp = s.pcomp := rfl
@[simp] theorem State.raiseUninit_pcorr : s.raiseUninit.pcorr = s.pcorr := rfl
@[simp] theorem State.raiseUninit_res : s.raiseUninit.res = s.res := rfl
@[simp] theorem State.raiseUninit_rkind : s.raiseUninit.rkind = s.rkind := rfl
@[simp] theorem State.raiseUninit_err : s.raiseUninit.err = .uninit := rfl
@[simp] theorem State.raiseUninit_auxen : s.raiseUninit.auxen = s.auxen := rfl
@[simp] theorem State.raiseUninit_busy : s.raiseUninit.busy = false := rfl
@[simp] theorem State.raiseUninit_cur : s.raiseUninit.cur = s.cur := rfl
@[simp] theorem State.raiseUninit_upc : s.raiseUninit.upc = s.upc := rfl
@[simp] theorem State.raiseUninit_hi : s.raiseUninit.hi = s.hi := rfl
@[simp] theorem State.raiseUninit_trace : s.raiseUninit.trace = s.trace := rfl
@[simp] theorem State.raiseUninit_par : s.raiseUninit.par = s.par := rfl
@[simp] theorem State.raiseUninit_inputs : s.raiseUninit.inputs = s.inputs := rfl
@[simp] theorem State.raiseUninit_replies : s.raiseUninit.replies = s.replies := rfl
@[simp] theorem State.raiseUninit_drawn : s.raiseUninit.drawn = s.drawn := rfl
@[simp] theorem State.raiseUninit_epoch : s.raiseUninit.epoch = s.epoch := rfl

/-! ### sensorAnswers: The sensor's next answers are no register (log 18). -/

@[simp] theorem State.sensorAnswers_lc (w : RawWord) : (s.sensorAnswers w).lc = s.lc := rfl
@[simp] theorem State.sensorAnswers_coeffs (w : RawWord) : (s.sensorAnswers w).coeffs = s.coeffs := rfl
@[simp] theorem State.sensorAnswers_wd (w : RawWord) : (s.sensorAnswers w).wd = s.wd := rfl
@[simp] theorem State.sensorAnswers_d1 (w : RawWord) : (s.sensorAnswers w).d1 = s.d1 := rfl
@[simp] theorem State.sensorAnswers_d2 (w : RawWord) : (s.sensorAnswers w).d2 = s.d2 := rfl
@[simp] theorem State.sensorAnswers_temp (w : RawWord) : (s.sensorAnswers w).temp = s.temp := rfl
@[simp] theorem State.sensorAnswers_tcorr (w : RawWord) : (s.sensorAnswers w).tcorr = s.tcorr := rfl
@[simp] theorem State.sensorAnswers_pcomp (w : RawWord) : (s.sensorAnswers w).pcomp = s.pcomp := rfl
@[simp] theorem State.sensorAnswers_pcorr (w : RawWord) : (s.sensorAnswers w).pcorr = s.pcorr := rfl
@[simp] theorem State.sensorAnswers_res (w : RawWord) : (s.sensorAnswers w).res = s.res := rfl
@[simp] theorem State.sensorAnswers_rkind (w : RawWord) : (s.sensorAnswers w).rkind = s.rkind := rfl
@[simp] theorem State.sensorAnswers_err (w : RawWord) : (s.sensorAnswers w).err = s.err := rfl
@[simp] theorem State.sensorAnswers_auxen (w : RawWord) : (s.sensorAnswers w).auxen = s.auxen := rfl
@[simp] theorem State.sensorAnswers_busy (w : RawWord) : (s.sensorAnswers w).busy = s.busy := rfl
@[simp] theorem State.sensorAnswers_cur (w : RawWord) : (s.sensorAnswers w).cur = s.cur := rfl
@[simp] theorem State.sensorAnswers_upc (w : RawWord) : (s.sensorAnswers w).upc = s.upc := rfl
@[simp] theorem State.sensorAnswers_hi (w : RawWord) : (s.sensorAnswers w).hi = s.hi := rfl
@[simp] theorem State.sensorAnswers_trace (w : RawWord) : (s.sensorAnswers w).trace = s.trace := rfl
@[simp] theorem State.sensorAnswers_par (w : RawWord) : (s.sensorAnswers w).par = s.par := rfl
@[simp] theorem State.sensorAnswers_inputs (w : RawWord) : (s.sensorAnswers w).inputs = s.inputs := rfl
@[simp] theorem State.sensorAnswers_replies (w : RawWord) : (s.sensorAnswers w).replies = .completes (hiByte w) :: .completes (loByte w) :: s.replies := rfl
@[simp] theorem State.sensorAnswers_drawn (w : RawWord) : (s.sensorAnswers w).drawn = s.drawn := rfl
@[simp] theorem State.sensorAnswers_epoch (w : RawWord) : (s.sensorAnswers w).epoch = s.epoch := rfl

/-! ### consumeInput: Host input is no register (log 5). -/

@[simp] theorem State.consumeInput_lc : s.consumeInput.lc = s.lc := by unfold State.consumeInput; (repeat' split) <;> rfl
@[simp] theorem State.consumeInput_coeffs : s.consumeInput.coeffs = s.coeffs := by unfold State.consumeInput; (repeat' split) <;> rfl
@[simp] theorem State.consumeInput_wd : s.consumeInput.wd = s.wd := by unfold State.consumeInput; (repeat' split) <;> rfl
@[simp] theorem State.consumeInput_d1 : s.consumeInput.d1 = s.d1 := by unfold State.consumeInput; (repeat' split) <;> rfl
@[simp] theorem State.consumeInput_d2 : s.consumeInput.d2 = s.d2 := by unfold State.consumeInput; (repeat' split) <;> rfl
@[simp] theorem State.consumeInput_temp : s.consumeInput.temp = s.temp := by unfold State.consumeInput; (repeat' split) <;> rfl
@[simp] theorem State.consumeInput_tcorr : s.consumeInput.tcorr = s.tcorr := by unfold State.consumeInput; (repeat' split) <;> rfl
@[simp] theorem State.consumeInput_pcomp : s.consumeInput.pcomp = s.pcomp := by unfold State.consumeInput; (repeat' split) <;> rfl
@[simp] theorem State.consumeInput_pcorr : s.consumeInput.pcorr = s.pcorr := by unfold State.consumeInput; (repeat' split) <;> rfl
@[simp] theorem State.consumeInput_res : s.consumeInput.res = s.res := by unfold State.consumeInput; (repeat' split) <;> rfl
@[simp] theorem State.consumeInput_rkind : s.consumeInput.rkind = s.rkind := by unfold State.consumeInput; (repeat' split) <;> rfl
@[simp] theorem State.consumeInput_err : s.consumeInput.err = s.err := by unfold State.consumeInput; (repeat' split) <;> rfl
@[simp] theorem State.consumeInput_auxen : s.consumeInput.auxen = s.auxen := by unfold State.consumeInput; (repeat' split) <;> rfl
@[simp] theorem State.consumeInput_busy : s.consumeInput.busy = s.busy := by unfold State.consumeInput; (repeat' split) <;> rfl
@[simp] theorem State.consumeInput_cur : s.consumeInput.cur = s.cur := by unfold State.consumeInput; (repeat' split) <;> rfl
@[simp] theorem State.consumeInput_upc : s.consumeInput.upc = s.upc := by unfold State.consumeInput; (repeat' split) <;> rfl
@[simp] theorem State.consumeInput_hi : s.consumeInput.hi = s.hi := by unfold State.consumeInput; (repeat' split) <;> rfl
@[simp] theorem State.consumeInput_trace : s.consumeInput.trace = s.trace := by unfold State.consumeInput; (repeat' split) <;> rfl
@[simp] theorem State.consumeInput_par : s.consumeInput.par = s.par := by unfold State.consumeInput; (repeat' split) <;> rfl
@[simp] theorem State.consumeInput_replies : s.consumeInput.replies = s.replies := by unfold State.consumeInput; (repeat' split) <;> rfl
@[simp] theorem State.consumeInput_drawn : s.consumeInput.drawn = s.drawn := by unfold State.consumeInput; (repeat' split) <;> rfl
@[simp] theorem State.consumeInput_epoch : s.consumeInput.epoch = s.epoch := by unfold State.consumeInput; (repeat' split) <;> rfl

end Sys2Proof.Machine
end

