-- ==== Sys2Proof/Laws/Ops.lean ====
section
/-! SUPPORT. What each shared operation can do, said once; the statements' proofs cite these. -/

namespace Sys2Proof.Machine

/-! ### Arithmetic -/

/-- The shift is monotone: a bound on the product bounds the shifted product. -/
theorem asr_mono {v w : Int} (n : Nat) (h : v ≤ w) : asr v n ≤ asr w n :=
  Int.ediv_le_ediv (by positivity) h

theorem asr_nonneg {v : Int} (n : Nat) (h : 0 ≤ v) : 0 ≤ asr v n :=
  Int.ediv_nonneg h (by positivity)

@[simp] theorem asr_zero (n : Nat) : asr 0 n = 0 := by simp [asr]

/-- The shift is the floor of the quotient (R19). -/
theorem asr_eq_iff (v q : Int) (n : Nat) : asr v n = q ↔ q * 2 ^ n ≤ v ∧ v < (q + 1) * 2 ^ n := by
  have h : (0 : Int) < 2 ^ n := by positivity
  rw [asr, Int.ediv_eq_iff_of_pos h]
  constructor
  · rintro ⟨h1, h2⟩; constructor <;> linarith
  · rintro ⟨h1, h2⟩; constructor <;> linarith

theorem zext_nonneg (w : RawWord) : 0 ≤ zext w := by simp [zext]

theorem zext_le (w : RawWord) : zext w ≤ 65535 := by
  have := w.isLt
  simp only [zext]; omega

/-! ### Ports -/

section
variable {s t : State} {b : Byte} {rest : List Reply}

@[simp] theorem State.hangs_nil (h : s.replies = []) : s.hangs = false := by
  simp [State.hangs, h]

@[simp] theorem State.hangs_completes (h : s.replies = .completes b :: rest) : s.hangs = false := by
  simp [State.hangs, h]

@[simp] theorem State.hangs_never (h : s.replies = .never :: rest) : s.hangs = true := by
  simp [State.hangs, h]

@[simp] theorem State.answer_completes (h : s.replies = .completes b :: rest) : s.answer = b := by
  simp [State.answer, h]

@[simp] theorem State.answer_nil (h : s.replies = []) : s.answer = Config.busByte s.drawn := by
  simp [State.answer, h]

theorem State.answered_completes (h : s.replies = .completes b :: rest) :
    s.answered = { s with replies := rest } := by
  simp [State.answered, h]

theorem State.answered_nil (h : s.replies = []) :
    s.answered = { s with drawn := s.drawn + 1 } := by
  simp [State.answered, h]

/-- A request completes exactly when its collaborator answers, and then its event joins the trace. -/
theorem request_eq_some (e : Event) :
    request e s = some t ↔ s.hangs = false ∧ t = s.answered.emit e := by
  unfold request
  cases s.hangs <;> simp [eq_comm]

theorem request_eq_none (e : Event) : request e s = none ↔ s.hangs = true := by
  unfold request
  cases s.hangs <;> simp

theorem rxOp_eq_some (target : RxTarget) :
    rxOp target s = some t ↔
      s.hangs = false ∧
      t = (s.answered.emit (.xfer s.par.dummy s.answer)).receive target s.answer := by
  unfold rxOp request
  cases s.hangs <;> simp [eq_comm]

theorem rxOp_eq_none (target : RxTarget) : rxOp target s = none ↔ s.hangs = true := by
  unfold rxOp request
  cases s.hangs <;> simp

end

/-! ### Sequencing -/

theorem State.complete_idle {s : State} (h : s.busy = false) : s.complete = s := by
  simp [State.complete, h]

/-- After the last micro-operation the command is over (R118). -/
theorem State.complete_last {s : State} (h : s.busy = true)
    (hl : s.upc.toNat = lastIndex (cmdOp s.cur)) :
    s.complete = { s.bracketWrites with busy := false } := by
  simp [State.complete, h, hl]

/-- After any other the next one follows (R118). -/
theorem State.complete_next {s : State} (h : s.busy = true)
    (hl : s.upc.toNat ≠ lastIndex (cmdOp s.cur)) :
    s.complete = { s.bracketWrites with upc := s.upc + 1 } := by
  simp [State.complete, h, hl]

/-- The bracketed writes happen at two indices only (R125). -/
theorem State.bracketWrites_other {s : State} (hi : ¬(cmdOp s.cur = .init ∧ s.upc.toNat = 0))
    (hs : ¬(cmdOp s.cur = .sreset ∧ s.upc.toNat = 3)) : s.bracketWrites = s := by
  unfold State.bracketWrites
  split <;> simp_all

/-- A micro-operation either completes or leaves the state as it is (R118, R136). -/
theorem State.perform_cases (m : State → Option State) (s : State) :
    (∃ t, m s = some t ∧ s.perform m = t.complete) ∨ (m s = none ∧ s.perform m = s) := by
  unfold State.perform
  cases m s <;> simp

@[simp] theorem State.performAll_nil (s : State) : s.performAll [] = s := rfl

theorem State.performAll_some {m : State → Option State} {s t : State}
    (ms : List (State → Option State)) (h : m s = some t) :
    s.performAll (m :: ms) = t.complete.performAll ms := by
  simp [State.performAll, h]

theorem State.performAll_none {m : State → Option State} {s : State}
    (ms : List (State → Option State)) (h : m s = none) : s.performAll (m :: ms) = s := by
  simp [State.performAll, h]

theorem State.accept_idle {s : State} (c : BitVec 3) (h : s.busy = false) :
    s.accept c = { s with cur := c, upc := 0, busy := true } := by
  simp [State.accept, h]

theorem State.accept_busy {s : State} (c : BitVec 3) (h : s.busy = true) : s.accept c = s := by
  simp [State.accept, h]

/-- What `RST` leaves of the answers: an outstanding request is forgotten, and nothing else (R145, log 14). -/
theorem State.repliesAfterReset_cases (s : State) :
    (s.outstanding = true ∧ ∃ rest, s.replies = .never :: rest ∧ s.repliesAfterReset = rest) ∨
    (s.outstanding = false ∧ s.repliesAfterReset = s.replies) := by
  unfold State.repliesAfterReset
  cases h : s.outstanding with
  | false => exact .inr ⟨rfl, rfl⟩
  | true =>
    left
    simp only [State.outstanding, Bool.and_eq_true] at h
    have hh := h.1.2
    unfold State.hangs at hh
    split at hh
    · rename_i rest hr
      exact ⟨rfl, rest, hr, by simp [hr]⟩
    · cases hh

/-- An outstanding request is a port request the running command stands at (R136). -/
theorem State.outstanding_iff (s : State) :
    s.outstanding = true ↔ s.busy = true ∧ s.hangs = true ∧
      ∃ i, microOp s.par s.cur s.upc = some i ∧ isPortRequest i = true := by
  unfold State.outstanding
  cases microOp s.par s.cur s.upc <;> simp [and_assoc]

end Sys2Proof.Machine
end

