-- ==== Sys2Proof/Laws/PerInstr.lean ====
section
/-! SUPPORT. Laws of the instructions as syntax, one lemma per constructor. -/

namespace Sys2Proof

/-- The column "format" of the opcode table (R55). -/
def Laws.tableFormat : Instr → Format
  | .init _ => .h
  | .sreset _ => .h
  | .gett _ => .h
  | .getpMbar => .h
  | .getpMmhg => .h
  | .rst => .rstLevel
  | .cfg => .t
  | .modeA => .t
  | .modeB => .t
  | .tx _ => .t
  | .rx => .t
  | .wait _ => .d
  | .auxon => .auxLevel
  | .chk _ _ => .u
  | .dec _ => .u
  | .cmpt _ => .u
  | .cmpp _ => .u
  | .sresetPattern => .b3
  | .rdcal0 => .b2
  | .rdcal1 => .b2
  | .rdcal2 => .b2
  | .rdcal3 => .b2
  | .acqT => .b2
  | .acqP => .b2
  | .rd16 _ _ => .rd16
  | .cal0 _ _ => .w0
  | .cal1 _ _ => .w1
  | .cal2 _ _ => .w2
  | .cal3 _ _ => .w3

/-- For every value of the operands and of the parameters, the encoder writes an instruction in the format its
row of the opcode table names. -/
def Laws.EncodeFormat.Statement (i : Instr) : Prop :=
  ∀ p : Params, (encode p i).format = Laws.tableFormat i

theorem Laws.EncodeFormat.init (unit : Bool) : Laws.EncodeFormat.Statement (.init unit) := fun _ => rfl
theorem Laws.EncodeFormat.sreset (unit : Bool) : Laws.EncodeFormat.Statement (.sreset unit) := fun _ => rfl
theorem Laws.EncodeFormat.gett (unit : Bool) : Laws.EncodeFormat.Statement (.gett unit) := fun _ => rfl
theorem Laws.EncodeFormat.getpMbar : Laws.EncodeFormat.Statement .getpMbar := fun _ => rfl
theorem Laws.EncodeFormat.getpMmhg : Laws.EncodeFormat.Statement .getpMmhg := fun _ => rfl
theorem Laws.EncodeFormat.rst : Laws.EncodeFormat.Statement .rst := fun _ => rfl
theorem Laws.EncodeFormat.cfg : Laws.EncodeFormat.Statement .cfg := fun _ => rfl
theorem Laws.EncodeFormat.modeA : Laws.EncodeFormat.Statement .modeA := fun _ => rfl
theorem Laws.EncodeFormat.modeB : Laws.EncodeFormat.Statement .modeB := fun _ => rfl
theorem Laws.EncodeFormat.tx (b : Byte) : Laws.EncodeFormat.Statement (.tx b) := fun _ => rfl
theorem Laws.EncodeFormat.rx : Laws.EncodeFormat.Statement .rx := fun _ => rfl
theorem Laws.EncodeFormat.wait (n : BitVec 16) : Laws.EncodeFormat.Statement (.wait n) := fun _ => rfl
theorem Laws.EncodeFormat.auxon : Laws.EncodeFormat.Statement .auxon := fun _ => rfl
theorem Laws.EncodeFormat.chk (unit k : Bool) : Laws.EncodeFormat.Statement (.chk unit k) := fun _ => rfl
theorem Laws.EncodeFormat.dec (unit : Bool) : Laws.EncodeFormat.Statement (.dec unit) := fun _ => rfl
theorem Laws.EncodeFormat.cmpt (unit : Bool) : Laws.EncodeFormat.Statement (.cmpt unit) := fun _ => rfl
theorem Laws.EncodeFormat.cmpp (u : PressureUnit) : Laws.EncodeFormat.Statement (.cmpp u) := fun _ => rfl
theorem Laws.EncodeFormat.sresetPattern : Laws.EncodeFormat.Statement .sresetPattern := fun _ => rfl
theorem Laws.EncodeFormat.rdcal0 : Laws.EncodeFormat.Statement .rdcal0 := fun _ => rfl
theorem Laws.EncodeFormat.rdcal1 : Laws.EncodeFormat.Statement .rdcal1 := fun _ => rfl
theorem Laws.EncodeFormat.rdcal2 : Laws.EncodeFormat.Statement .rdcal2 := fun _ => rfl
theorem Laws.EncodeFormat.rdcal3 : Laws.EncodeFormat.Statement .rdcal3 := fun _ => rfl
theorem Laws.EncodeFormat.acqT : Laws.EncodeFormat.Statement .acqT := fun _ => rfl
theorem Laws.EncodeFormat.acqP : Laws.EncodeFormat.Statement .acqP := fun _ => rfl
theorem Laws.EncodeFormat.rd16 (hi lo : Byte) : Laws.EncodeFormat.Statement (.rd16 hi lo) := fun _ => rfl
theorem Laws.EncodeFormat.cal0 (c1 : BitVec 15) (c5hi : BitVec 1) : Laws.EncodeFormat.Statement (.cal0 c1 c5hi) := fun _ => rfl
theorem Laws.EncodeFormat.cal1 (c5lo : BitVec 10) (c6 : BitVec 6) : Laws.EncodeFormat.Statement (.cal1 c5lo c6) := fun _ => rfl
theorem Laws.EncodeFormat.cal2 (c4 : BitVec 10) (c2hi : BitVec 6) : Laws.EncodeFormat.Statement (.cal2 c4 c2hi) := fun _ => rfl
theorem Laws.EncodeFormat.cal3 (c3 : BitVec 10) (c2lo : BitVec 6) : Laws.EncodeFormat.Statement (.cal3 c3 c2lo) := fun _ => rfl

end Sys2Proof
end

