-- ==== Sys2Proof/Laws/Step.lean ====
section
/-! SUPPORT. What one step can do, said once. -/

namespace Sys2Proof.Machine

/-- Every command word starts its micro-program when it is executed (R57, R117). -/
theorem exec_decodeH (w : BitVec 3) (s : State) : exec (decodeH w) s = .next (s.accept w) := by
  have h : w = 0 ∨ w = 1 ∨ w = 2 ∨ w = 3 ∨ w = 4 ∨ w = 5 ∨ w = 6 ∨ w = 7 := by
    revert w; decide
  rcases h with h | h | h | h | h | h | h | h <;> subst h <;> rfl

/-- With the hardware reset asserted a step is the hardware reset. -/
theorem step_of_reset {s : State} {rest : List HostInput} (h : s.inputs = .reset :: rest) :
    step s = .next { s with inputs := rest }.hardwareReset := by
  simp only [step, State.fetchWord, State.consumeInput, h]
  rfl

/-- Without it, a running command takes its next micro-operation. -/
theorem step_of_busy {s : State} (hr : s.inputs.head? ≠ some .reset) (hb : s.busy = true) :
    step s =
      match microOp s.par s.cur s.upc with
      | some i => exec i s.consumeInput
      | none => .fault .noMicroOperation := by
  have hf : s.fetchWord = some (.u (controlWord s.cur s.upc)) := by
    unfold State.fetchWord
    split <;> simp_all
  simp only [step, hf, decode, decodeU_controlWord]
  cases microOp s.par s.cur s.upc <;> rfl

/-- An idle block accepts the command word presented. -/
theorem step_of_command {s : State} {w : BitVec 3} {rest : List HostInput}
    (h : s.inputs = .command w :: rest) (hb : s.busy = false) :
    step s = .next { s with inputs := rest, cur := w, upc := 0, busy := true } := by
  simp only [step, State.fetchWord, State.consumeInput, h, hb, decode]
  simp [exec_decodeH, State.accept]

/-- An idle block with nothing presented stays as it is. -/
theorem step_of_idle {s : State} (hr : s.inputs.head? ≠ some .reset)
    (hc : ∀ w, s.inputs.head? ≠ some (.command w)) (hb : s.busy = false) :
    step s = .next s.consumeInput := by
  have hf : s.fetchWord = none := by
    unfold State.fetchWord
    split <;> simp_all
  simp [step, hf]

/-- Everything a step that answers a next state can be (R117, R118, R119, R133). -/
theorem step_cases {s t : State} (h : step s = .next t) :
    (∃ rest, s.inputs = .reset :: rest ∧ t = { s with inputs := rest }.hardwareReset) ∨
    (s.inputs.head? ≠ some .reset ∧ s.busy = true ∧
      ∃ i, microOp s.par s.cur s.upc = some i ∧ exec i s.consumeInput = .next t) ∨
    (s.busy = false ∧ ∃ w rest, s.inputs = .command w :: rest ∧
      t = { s with inputs := rest, cur := w, upc := 0, busy := true }) ∨
    (s.busy = false ∧ t = s.consumeInput) := by
  by_cases hr : s.inputs.head? = some .reset
  · left
    cases hi : s.inputs with
    | nil => simp [hi] at hr
    | cons a rest =>
      simp only [hi, List.head?_cons, Option.some.injEq] at hr
      subst hr
      rw [step_of_reset hi] at h
      exact ⟨rest, rfl, (Host.Outcome.next.inj h).symm⟩
  · cases hb : s.busy with
    | true =>
      right; left
      rw [step_of_busy hr hb] at h
      cases hm : microOp s.par s.cur s.upc with
      | none => simp [hm] at h
      | some i => exact ⟨hr, rfl, i, rfl, by simpa [hm] using h⟩
    | false =>
      right; right
      by_cases hc : ∃ w, s.inputs.head? = some (.command w)
      · left
        obtain ⟨w, hw⟩ := hc
        cases hi : s.inputs with
        | nil => simp [hi] at hw
        | cons a rest =>
          simp only [hi, List.head?_cons, Option.some.injEq] at hw
          subst hw
          rw [step_of_command hi hb] at h
          exact ⟨rfl, w, rest, rfl, (Host.Outcome.next.inj h).symm⟩
      · right
        rw [step_of_idle hr (fun w hw => hc ⟨w, hw⟩) hb] at h
        exact ⟨rfl, (Host.Outcome.next.inj h).symm⟩

/-- The step function with its parameters is the step, seen on the state without them (R52). -/
theorem stepWith_next (p : Params) (b b' : Block) :
    stepWith p b = .next b' ↔ ∃ t, step { b with par := p } = .next t ∧ b' = t.toBlock := by
  unfold stepWith
  cases step { b with par := p } <;> simp [eq_comm]

end Sys2Proof.Machine
end

