-- ==== Sys2Proof/Tests/Slice0.lean ====
section
/-! SUPPORT. The model's own tests, each expected value from the spec (the vectors of 95_test_vectors.md and the
encodings of 30_encoding.md), and for every statement with hypotheses a witness that meets them. -/

namespace Sys2Proof.Tests

open Sys2Proof Sys2Proof.Machine Sys2Proof.Claim

/-- The default parameters with concrete values where the spec leaves them open. -/
def par0 : Params :=
  { Params.default with clkDiv := 8, auxPin := 2, auxFreq := ⟨32768, 1⟩, auxDuty := ⟨1, 2⟩ }

/-- Set A of 95_test_vectors.md, and the words it is decoded from. -/
def setA : Coeffs := ⟨23470, 1324, 737, 393, 628, 25⟩

def wordsA : RawWords := ⟨0xB75C, 0x9D19, 0x6254, 0xB86C⟩

/-- An idle block in `Ready`, with set A, after an `INIT`. -/
def idle : State where
  lc := .ready
  coeffs := setA
  wd := wordsA
  d1 := 16460
  d2 := 27856
  temp := 0
  tcorr := 0
  pcomp := 0
  pcorr := 0
  res := 0
  rkind := .none
  err := .none
  auxen := true
  busy := false
  cur := 0
  upc := 0
  hi := 0x12
  trace := []
  par := par0
  inputs := []
  replies := []
  drawn := 0
  epoch := 0

/-- The same before the first `INIT`. -/
def fresh : State := { idle with lc := .uninitialized, auxen := false }

/-- A block at index `upc` of the micro-program of `cur`, the collaborators answering with `bytes`. -/
def running (cur : BitVec 3) (upc : BitVec 6) (bytes : List Byte) : State :=
  { idle with busy := true, cur := cur, upc := upc, replies := bytes.map .completes }

/-- The next state, if there is one, through `f`. -/
def after {α : Type} (o : Host.Outcome State Fault Refusal) (f : State → α) : Option α :=
  match o with
  | .next t => some (f t)
  | _ => none

/-! ### Well-formedness -/

theorem test_wf_tx_in_rom : (Instr.tx 0x15).wellFormed par0 = true := by decide
theorem test_wf_tx_not_in_rom : (Instr.tx 0xFF).wellFormed par0 = false := by decide
theorem test_wf_wait_conv_delay : (Instr.wait 35).wellFormed par0 = true := by decide
theorem test_wf_wait_other : (Instr.wait 34).wellFormed par0 = false := by decide

/-! ### Decoding: the words E-1 to E-16 and the patterns and layouts of 30_encoding.md -/

theorem test_decode_init : decode par0 (.h 0b000) = .ok (.init false) := by rfl
theorem test_decode_init_alias : decode par0 (.h 0b100) = .ok (.init true) := by rfl
theorem test_decode_sreset : decode par0 (.h 0b001) = .ok (.sreset false) := by rfl
theorem test_decode_gett : decode par0 (.h 0b010) = .ok (.gett false) := by rfl
theorem test_decode_getp_mbar : decode par0 (.h 0b011) = .ok .getpMbar := by rfl
theorem test_decode_getp_mmhg : decode par0 (.h 0b111) = .ok .getpMmhg := by rfl
theorem test_decode_rst : decode par0 (.rst 1) = .ok .rst := by rfl
theorem test_decode_rst_low : decode par0 (.rst 0) = .error .levelNotAsserted := by rfl
theorem test_decode_auxon : decode par0 (.aux 1) = .ok .auxon := by rfl
theorem test_decode_cfg : decode par0 (.t 0x000) = .ok .cfg := by rfl
theorem test_decode_mode_a : decode par0 (.t 0x100) = .ok .modeA := by rfl
theorem test_decode_mode_b : decode par0 (.t 0x101) = .ok .modeB := by rfl
theorem test_decode_tx : decode par0 (.t 0x215) = .ok (.tx 0x15) := by rfl
theorem test_decode_rx : decode par0 (.t 0x200) = .ok .rx := by rfl
/-- E-14: with `DUMMY` = `0xFF` the same word would be `RX`. -/
theorem test_decode_xfer_ff :
    decode par0 (.t 0x2FF) = .ok (.tx 0xFF) ∧
    decode { par0 with dummy := 0xFF } (.t 0x2FF) = .ok .rx := by exact ⟨rfl, rfl⟩
theorem test_decode_never_sent : decode par0 (.t 0x3A5) = .error .transportOpNeverSent := by rfl
theorem test_decode_wait : decode par0 (.d 0x0023) = .ok (.wait 35) := by rfl
theorem test_decode_chk : decode par0 (.u 0b010000000) = .ok (.chk false false) := by rfl
theorem test_decode_chk_getp : decode par0 (.u 0b111000000) = .ok (.chk true true) := by rfl
theorem test_decode_dec : decode par0 (.u 0b000101010) = .ok (.dec false) := by rfl
theorem test_decode_cmpt : decode par0 (.u 0b110001011) = .ok (.cmpt true) := by rfl
theorem test_decode_cmpp_mbar : decode par0 (.u 0b011010101) = .ok (.cmpp .millibar) := by rfl
theorem test_decode_cmpp_mmhg : decode par0 (.u 0b111010101) = .ok (.cmpp .mmHg) := by rfl
theorem test_decode_beyond_the_end : decode par0 (.u 0b001000100) = .error .noMicroOperation := by rfl
theorem test_decode_reset_pattern : decode par0 (.b3 0x155540) = .ok .sresetPattern := by rfl
theorem test_decode_rdcal0 : decode par0 (.b2 0x1D50) = .ok .rdcal0 := by rfl
theorem test_decode_rdcal1 : decode par0 (.b2 0x1D60) = .ok .rdcal1 := by rfl
theorem test_decode_rdcal2 : decode par0 (.b2 0x1D90) = .ok .rdcal2 := by rfl
theorem test_decode_rdcal3 : decode par0 (.b2 0x1DA0) = .ok .rdcal3 := by rfl
theorem test_decode_acq_t : decode par0 (.b2 0x0F20) = .ok .acqT := by rfl
theorem test_decode_acq_p : decode par0 (.b2 0x0F40) = .ok .acqP := by rfl
theorem test_decode_rd16 : decode par0 (.rd16 0xB75C) = .ok (.rd16 0xB7 0x5C) := by rfl
/-- The inverse check of section 2.2: set A packed by the layouts (R66 to R69). -/
theorem test_decode_cal0 : decode par0 (.w0 0xB75C) = .ok (.cal0 23470 0) := by rfl
theorem test_decode_cal1 : decode par0 (.w1 0x9D19) = .ok (.cal1 628 25) := by rfl
theorem test_decode_cal2 : decode par0 (.w2 0x6254) = .ok (.cal2 393 20) := by rfl
theorem test_decode_cal3 : decode par0 (.w3 0xB86C) = .ok (.cal3 737 44) := by rfl

/-! ### Table words, and the first step of a program (log 10, log 13) -/

theorem test_table_words :
    decodeTableWord 8 0b011 = some .getpMbar ∧ decodeTableWord 16 0x0215 = some (.tx 0x15) ∧
    decodeTableWord 16 0x0023 = some (.wait 35) ∧ decodeTableWord 16 0x00D5 = some (.cmpp .millibar) ∧
    decodeTableWord 16 0x0F20 = some .acqT ∧ decodeTableWord 24 0x155540 = some .sresetPattern := by
  exact ⟨rfl, rfl, rfl, rfl, rfl, rfl⟩

theorem test_placed_command_is_accepted :
    after (step (State.reset.withFetchWord 8 0b011)) (fun t => (t.busy, t.cur, t.upc)) =
      some (true, 0b011, 0) := by rfl

theorem test_placed_tx_runs :
    after (step (State.reset.withFetchWord 16 0x0260)) (fun t => (t.upc, t.cur)) = some (21, 0b000) ∧
    State.reset.place (.tx 0xFF) = State.reset := by exact ⟨rfl, rfl⟩

theorem test_placed_micro_operation_runs :
    after (step (State.reset.withFetchWord 16 0x0101)) (fun t => (t.trace, t.upc)) =
      some ([.mode .b], 13) := by rfl

/-! ### Meanings -/

/-- P5: a command is accepted. -/
theorem test_gett_accepted :
    exec (.gett false) fresh = .next { fresh with cur := 0b010, busy := true } := by rfl

/-- R117: and not while `BUSY` = 1. -/
theorem test_init_refused_while_busy :
    exec (.init false) (running 0b001 1 []) = .next (running 0b001 1 []) := by rfl

/-- P5, 2.: a query before `INIT`. -/
theorem test_chk_uninit :
    after (exec (.chk false false) { running 0b010 0 [] with lc := .uninitialized })
      (fun t => (t.err, t.busy, t.trace)) = some (.uninit, false, []) := by decide

theorem test_chk_ready :
    after (exec (.chk false true) (running 0b011 0 [])) (fun t => (t.err, t.busy, t.upc)) =
      some (.none, true, 1) := by decide

/-- P1, event 1. -/
theorem test_cfg :
    after (exec .cfg (running 0b000 0 [0xAA])) (fun t => (t.trace, t.lc, t.upc)) =
      some ([.cfg], .uninitialized, 1) := by decide

/-- P1, event 2. -/
theorem test_auxon :
    after (exec .auxon { running 0b000 1 [] with auxen := false }) (fun t => (t.trace, t.auxen)) =
      some ([.auxOn], true) := by decide

/-- P6: the last byte of a host `SRESET`. -/
theorem test_tx_ends_sreset :
    after (exec (.tx 0x40) { running 0b001 3 [0x77] with err := .uninit })
      (fun t => (t.trace, t.err, t.busy, t.hi)) = some ([.xfer 0x40 0x77], .none, false, 0x12) := by
  decide

/-- SEQ-5, first byte. -/
theorem test_rxh :
    after (exec .rx (running 0b010 9 [0x12])) (fun t => (t.hi, t.d2)) = some (0x12, 27856) := by decide

/-- SEQ-5, second byte: the first byte is the upper one. -/
theorem test_rxl :
    after (exec .rx (running 0b011 10 [0x34])) (fun t => (t.d1, t.d2)) = some (0x1234, 27856) := by decide

/-- P2, event 7. -/
theorem test_wait :
    after (exec (.wait 35) (running 0b010 7 [0])) (fun t => (t.trace, t.upc)) =
      some ([.wait 35], 8) := by decide

/-- R136. -/
theorem test_mode_stuck :
    exec .modeA { running 0b001 0 [] with replies := [.never] } =
      .next { running 0b001 0 [] with replies := [.never] } := by rfl

/-- DEC-1, the document's own words. -/
theorem test_dec_source_example :
    after (exec (.dec false) { running 0b000 42 [] with wd := ⟨0x1234, 0x5678, 0x9ABC, 0xDEF0⟩ })
      (fun t => (t.coeffs, t.lc, t.busy)) = some (⟨2330, 3888, 891, 618, 345, 56⟩, .ready, false) := by
  decide

/-- DEC-5, DEC-6, DEC-7, DEC-9: the field boundaries. -/
theorem test_dec_boundaries :
    decodeWords ⟨0x0001, 0, 0, 0⟩ = ⟨0, 0, 0, 0, 1024, 0⟩ ∧
    decodeWords ⟨0xFFFE, 0xFFC0, 0x003F, 0x003F⟩ = ⟨32767, 4095, 0, 0, 1023, 0⟩ ∧
    decodeWords ⟨0x8000, 0x0040, 0x0040, 0x0040⟩ = ⟨16384, 0, 1, 1, 1, 0⟩ ∧
    decodeWords ⟨0, 0, 0x0020, 0x0001⟩ = ⟨0, 2049, 0, 0, 0, 0⟩ := by decide

/-- T-4: `dT` = -1 floors to 199. -/
theorem test_cmpt_floors :
    after (exec (.cmpt false) { running 0b010 11 [] with d2 := 25247 })
      (fun t => (t.temp, t.res, t.rkind, t.busy)) = some (199, 199, .temperature, false) := by decide

/-- T-17: the most negative temperature. -/
theorem test_cmpt_minimum :
    after (exec (.cmpt false) { running 0b010 11 [] with d2 := 0, coeffs := ⟨0, 0, 0, 0, 2047, 63⟩ })
      (fun t => t.temp) = some (-3839) := by decide

/-- Q-9: cold, negative `P2`. -/
theorem test_cmpp_cold :
    after (exec (.cmpp .millibar) { running 0b011 21 [] with d1 := 9000, d2 := 20000 })
      (fun t => (t.temp, t.tcorr, t.pcomp, t.pcorr, t.res)) =
      some (-185, -261, 2344, 2361, 2361) := by decide

/-- Q-19: hot, all products negative, mmHg from the uncorrected pressure. -/
theorem test_cmpp_hot :
    after (exec (.cmpp .mmHg)
        { running 0b111 21 [] with d1 := 0, d2 := 65535, coeffs := ⟨32767, 0, 1023, 0, 0, 63⟩ })
      (fun t => (t.temp, t.tcorr, t.pcomp, t.pcorr, t.res)) =
      some (5200, -416, -9759, 3787, -731983554) := by decide

/-- SEQ-8. -/
theorem test_reset_pattern :
    after (exec .sresetPattern (running 0b000 3 [1, 2, 3])) (fun t => t.trace) =
      some [.xfer 0x15 1, .xfer 0x55 2, .xfer 0x40 3] := by decide

/-- SEQ-9. -/
theorem test_rdcal0 :
    after (exec .rdcal0 (running 0b000 10 [1, 2, 0, 0xB7, 0x5C])) (fun t => (t.wd.w0, t.hi, t.trace)) =
      some (0xB75C, 0xB7, [.xfer 0x1D 1, .xfer 0x50 2, .mode .b, .xfer 0 0xB7, .xfer 0 0x5C]) := by
  decide

/-- SEQ-10. -/
theorem test_rdcal1 :
    after (exec .rdcal1 (running 0b000 19 [1, 2, 0, 0x9D, 0x19])) (fun t => (t.wd.w1, t.trace.take 2)) =
      some (0x9D19, [.xfer 0x1D 1, .xfer 0x60 2]) := by decide

/-- SEQ-11. -/
theorem test_rdcal2 :
    after (exec .rdcal2 (running 0b000 28 [1, 2, 0, 0x62, 0x54])) (fun t => (t.wd.w2, t.trace.take 2)) =
      some (0x6254, [.xfer 0x1D 1, .xfer 0x90 2]) := by decide

/-- SEQ-12. -/
theorem test_rdcal3 :
    after (exec .rdcal3 (running 0b000 37 [1, 2, 0, 0xB8, 0x6C])) (fun t => (t.wd.w3, t.trace.take 2)) =
      some (0xB86C, [.xfer 0x1D 1, .xfer 0xA0 2]) := by decide

/-- SEQ-13. -/
theorem test_acq_t :
    after (exec .acqT (running 0b010 1 [0, 1, 2, 3, 4, 5, 0, 0, 0x6C, 0xD0])) (fun t => (t.d2, t.trace)) =
      some (27856, [.mode .a, .xfer 0x15 1, .xfer 0x55 2, .xfer 0x40 3, .xfer 0x0F 4, .xfer 0x20 5,
        .wait 35, .mode .b, .xfer 0 0x6C, .xfer 0 0xD0]) := by decide

/-- SEQ-14. -/
theorem test_acq_p :
    after (exec .acqP (running 0b011 1 [0, 1, 2, 3, 4, 5, 0, 0, 0x40, 0x4C]))
      (fun t => (t.d1, t.d2, t.trace.drop 4 |>.take 2)) =
      some (16460, 27856, [.xfer 0x0F 4, .xfer 0x40 5]) := by decide

/-- SEQ-6: a set top bit does not make a raw value negative. -/
theorem test_rd16 :
    after (exec (.rd16 0x80 0x00) (running 0b010 9 [])) (fun t => (zext t.d2, t.hi)) =
      some (32768, 0x80) := by decide

theorem test_cal0 :
    after (exec (.cal0 23470 0) (running 0b000 13 [])) (fun t => t.wd.w0) = some 0xB75C := by decide
theorem test_cal1 :
    after (exec (.cal1 628 25) (running 0b000 22 [])) (fun t => t.wd.w1) = some 0x9D19 := by decide
theorem test_cal2 :
    after (exec (.cal2 393 20) (running 0b000 31 [])) (fun t => t.wd.w2) = some 0x6254 := by decide
theorem test_cal3 :
    after (exec (.cal3 737 44) (running 0b000 40 [])) (fun t => t.wd.w3) = some 0xB86C := by decide

/-- R144, R145: a reset in the middle of a command. -/
theorem test_rst :
    after (exec .rst { running 0b010 7 [] with replies := [.never, .completes 1] })
      (fun t => (t.busy, t.lc, t.auxen, t.replies)) =
      some (false, .uninitialized, false, [.completes 1]) := by decide

/-- R145: at an internal micro-operation no request is outstanding, and every answer stays (log 14). -/
theorem test_rst_internal :
    after (exec .rst { running 0b010 11 [] with replies := [.never, .completes 1] })
      (fun t => (t.busy, t.replies)) = some (false, [.never, .completes 1]) := by decide

/-! ### Witnesses: states that meet the hypotheses of the statements -/

/-- `StandsAt` on a concrete state is a computation. -/
theorem stands {s : State} {i : Instr} (h : s.busy = true) (h' : microOp s.par s.cur s.upc = some i) :
    StandsAt s i := ⟨h, h'⟩

/-- The next request of `running` is answered with the first byte. -/
theorem answered {cur : BitVec 3} {upc : BitVec 6} {b : Byte} {bytes : List Byte} :
    Answered (running cur upc (b :: bytes)) b (running cur upc bytes) := .inl ⟨_, rfl, rfl⟩

/-- With no answers listed it is answered with a free byte. -/
theorem answered_free {cur : BitVec 3} {upc : BitVec 6} :
    Answered (running cur upc []) (Config.busByte 0) { running cur upc [] with drawn := 1 } :=
  .inr ⟨rfl, rfl, rfl⟩

theorem witness_DecodeOfEncode :
    par0.unambiguous = true ∧ (Instr.tx 0x40).wellFormed par0 = true ∧
    (Instr.wait 35).wellFormed par0 = true := by decide

theorem witness_EncodeOfDecode :
    decode par0 (.t 0x200) = .ok .rx ∧ (encode par0 .rx).format = (PortWord.t 0x200).format ∧
    decode par0 (.u 0x02A) = .ok (.dec false) ∧
    (encode par0 (.dec false)).format = (PortWord.u 0x02A).format := by exact ⟨rfl, rfl, rfl, rfl⟩

theorem witness_CoefficientsFillTheWords :
    Coeffs.inRange ⟨0, 0, 0, 0, 0, 0⟩ ∧ Coeffs.inRange ⟨32767, 4095, 1023, 1023, 2047, 63⟩ ∧
    decodeWords wordsA = decodeWords ⟨46940, 40217, 25172, 47212⟩ := by
  refine ⟨?_, ?_, rfl⟩ <;> unfold Coeffs.inRange <;> decide

theorem witness_RequestWords : (Event.xfer 0xFF 0).treq = some 0x2FF := by decide

theorem witness_StepRunsTheDecodedInstruction_reset :
    { idle with inputs := [.reset] }.inputs = .reset :: ([] : List HostInput) := by rfl

theorem witness_StepRunsTheDecodedInstruction_busy :
    let s := running 0b000 42 []
    s.busy = true ∧ decode s.par (.u (s.cur ++ s.upc)) = .ok (.dec false) ∧ s.inputs = [] ∧
    { s with inputs := [.idle] }.inputs = [.idle] ∧
    { s with inputs := [.command 7] }.inputs = [.command 7] := by exact ⟨rfl, rfl, rfl, rfl, rfl⟩

theorem witness_StepRunsTheDecodedInstruction_idle :
    idle.busy = false ∧ idle.inputs = [] ∧ { idle with inputs := [.idle] }.inputs = [.idle] ∧
    { idle with inputs := [.command 7] }.inputs = [.command 7] ∧
    decode idle.par (.h 7) = .ok .getpMmhg := by exact ⟨rfl, rfl, rfl, rfl, rfl⟩

theorem witness_CommandAcceptance :
    idle.busy = false ∧ (running 0b000 42 []).busy = true ∧
    ∀ unit : Bool, (Instr.gett unit, bit unit ++ (0b10 : BitVec 2)) ∈
      [(Instr.init unit, bit unit ++ (0b00 : BitVec 2)), (Instr.sreset unit, bit unit ++ (0b01 : BitVec 2)),
       (Instr.gett unit, bit unit ++ (0b10 : BitVec 2)), (Instr.getpMbar, 0b011),
       (Instr.getpMmhg, 0b111)] := by decide

theorem witness_BusyBlockIgnoresTheHostPort :
    (running 0b000 1 []).busy = true ∧
    step { running 0b000 1 [] with inputs := [] } =
      .next { running 0b000 2 [] with trace := [.auxOn] } := by exact ⟨rfl, rfl⟩

/-- The last micro-operation, a check that fails, and one that goes on. -/
theorem witness_MicroOperationsInOrder :
    (let s := running 0b000 42 []
     s.busy = true ∧ s.inputs = [] ∧ s.replies.head? ≠ some .never ∧
     s.upc.toNat = lastIndex (cmdOp s.cur)) ∧
    (let s := { running 0b011 0 [] with lc := .uninitialized }
     s.busy = true ∧ s.inputs = [] ∧ s.replies.head? ≠ some .never ∧
     s.upc.toNat < lastIndex (cmdOp s.cur) ∧ isQuery s.cur ∧ s.upc.toNat = 0 ∧
     s.lc = .uninitialized) ∧
    (let s := running 0b011 20 [1]
     s.busy = true ∧ s.inputs = [] ∧ s.replies.head? ≠ some .never ∧
     s.upc.toNat < lastIndex (cmdOp s.cur)) := by decide

theorem witness_CfgConfiguresTheTransport :
    StandsAt (running 0b000 0 [1]) .cfg ∧ Answered (running 0b000 0 [1]) 1 (running 0b000 0 []) :=
  ⟨stands rfl rfl, answered⟩

/-- The same with no answer listed. -/
theorem witness_CfgConfiguresTheTransport_free :
    StandsAt (running 0b100 0 []) .cfg ∧
    Answered (running 0b100 0 []) (Config.busByte 0) { running 0b100 0 [] with drawn := 1 } :=
  ⟨stands rfl rfl, answered_free⟩

theorem witness_AuxonEnablesTheClock : StandsAt (running 0b000 1 []) .auxon := stands rfl rfl

theorem witness_ModeSelectsAClockMode :
    (StandsAt (running 0b001 0 [1]) .modeA ∧ Answered (running 0b001 0 [1]) 1 (running 0b001 0 [])) ∧
    (StandsAt (running 0b011 18 [1]) .modeB ∧ Answered (running 0b011 18 [1]) 1 (running 0b011 18 [])) :=
  ⟨⟨stands rfl rfl, answered⟩, stands rfl rfl, answered⟩

theorem witness_TxSendsAByte :
    StandsAt (running 0b001 2 [1]) (.tx 0x55) ∧ Answered (running 0b001 2 [1]) 1 (running 0b001 2 []) ∧
    ¬(cmdOp 0b001 = .sreset ∧ (2 : BitVec 6).toNat = 3) :=
  ⟨stands rfl rfl, answered, by decide⟩

theorem witness_TxSendsAByte_last :
    StandsAt (running 0b101 3 [1]) (.tx 0x40) ∧ Answered (running 0b101 3 [1]) 1 (running 0b101 3 []) ∧
    cmdOp 0b101 = .sreset ∧ (3 : BitVec 6).toNat = 3 :=
  ⟨stands rfl rfl, answered, rfl, rfl⟩

theorem witness_RxReadsSixteenBits_first :
    StandsAt (running 0b000 13 [1]) .rx ∧ Answered (running 0b000 13 [1]) 1 (running 0b000 13 []) ∧
    (cmdOp 0b000, (13 : BitVec 6).toNat) = (.init, 13) :=
  ⟨stands rfl rfl, answered, rfl⟩

theorem witness_RxReadsSixteenBits_second :
    StandsAt (running 0b111 20 [1]) .rx ∧ Answered (running 0b111 20 [1]) 1 (running 0b111 20 []) ∧
    (cmdOp 0b111, (20 : BitVec 6).toNat) = (.getp, 20) :=
  ⟨stands rfl rfl, answered, rfl⟩

theorem witness_WaitRequestsADelay :
    StandsAt (running 0b011 17 [1]) (.wait 35) ∧
    Answered (running 0b011 17 [1]) 1 (running 0b011 17 []) := ⟨stands rfl rfl, answered⟩

theorem witness_UnansweredRequestIsStuck :
    StandsAt { running 0b011 17 [] with replies := [.never] } (.wait 35) ∧
    isPortRequest (.wait 35) = true := ⟨stands rfl rfl, rfl⟩

theorem witness_CheckPassesInReady :
    StandsAt (running 0b111 0 []) (.chk true true) ∧ (running 0b111 0 []).lc = .ready :=
  ⟨stands rfl rfl, rfl⟩

theorem witness_CheckRaisesUninit : fresh.lc = .uninitialized := rfl

theorem witness_DecUnpacksTheCoefficients : StandsAt (running 0b100 42 []) (.dec true) := stands rfl rfl

theorem witness_CmptComputesTheTemperature : StandsAt (running 0b010 11 []) (.cmpt false) := stands rfl rfl

theorem witness_CmppComputesThePressure :
    StandsAt (running 0b011 21 []) (.cmpp .millibar) ∧ StandsAt (running 0b111 21 []) (.cmpp .mmHg) :=
  ⟨stands rfl rfl, stands rfl rfl⟩

theorem witness_TemperatureAnchor :
    let s := { running 0b010 11 [] with d2 := 25248 }
    (s.d2.toNat : Int) = 8 * s.coeffs.c5 + 20224 := by decide

/-- Both edges of the range. -/
theorem witness_NoCorrectionInsideTheRange :
    after (exec (.cmpp .millibar) { running 0b011 21 [] with d2 := 25248 }) (fun t => t.temp) = some 200 ∧
    after (exec (.cmpp .millibar) { running 0b011 21 [] with d2 := 28674 }) (fun t => t.temp) =
      some 450 := by decide

theorem witness_CorrectionLowersTheTemperature : idle.coeffs.inRange := by
  unfold Coeffs.inRange; decide

theorem witness_ResultsStayInTheirIntervals :
    { idle with coeffs := ⟨32767, 4095, 1023, 1023, 2047, 63⟩ }.coeffs.inRange := by
  unfold Coeffs.inRange; decide

theorem witness_ResetPatternSendsThreeBytes :
    (let s := running 0b011 12 [1, 2, 3]
     s.busy = true ∧ s.replies = answers (fun k => BitVec.ofNat 8 (k + 1)) 3 ++ [] ∧
     cmdOp s.cur = .getp ∧ s.upc.toNat = 12) ∧
    (let s := running 0b001 1 [1, 2, 3]
     s.busy = true ∧ s.replies = answers (fun k => BitVec.ofNat 8 (k + 1)) 3 ++ [] ∧
     cmdOp s.cur = .sreset ∧ s.upc.toNat = 1) := by decide

theorem witness_RdcalReadsOneWord :
    ∀ i : Fin 4, let s := running 0b000 (BitVec.ofNat 6 (10 + 9 * i.val)) [1, 2, 3, 4, 5]
      s.busy = true ∧ cmdOp s.cur = .init ∧ s.upc.toNat = 10 + 9 * i.val ∧
      s.replies = answers (fun k => BitVec.ofNat 8 (k + 1)) 5 ++ [] := by decide

theorem witness_AcqMeasures :
    let bytes : List Byte := [1, 2, 3, 4, 5, 6, 7, 8, 9, 10]
    (running 0b010 1 bytes).busy = true ∧
    (running 0b010 1 bytes).replies = answers (fun k => BitVec.ofNat 8 (k + 1)) 10 ++ [] ∧
    (cmdOp 0b010, (1 : BitVec 6).toNat) ∈ [(CmdOp.gett, 1), (.getp, 11)] ∧
    (cmdOp 0b111, (11 : BitVec 6).toNat) ∈ [(CmdOp.gett, 1), (.getp, 11)] ∧
    (cmdOp 0b011 = .getp ∧ (1 : BitVec 6).toNat = 1) := by decide

theorem witness_SixteenBitValuesAreBigEndian :
    (running 0b000 40 []).busy = true ∧
    ∀ place ∈ [(CmdOp.init, 13, RawReg.wd 0), (.init, 22, .wd 1), (.init, 31, .wd 2), (.init, 40, .wd 3),
       (.gett, 9, .d2), (.getp, 9, .d1), (.getp, 19, .d2)],
      ∃ cur : BitVec 3, (cmdOp cur, (BitVec.ofNat 6 place.2.1).toNat) = (place.1, place.2.1) := by decide

theorem witness_CalibrationWordLayouts :
    ∀ k ∈ [13, 22, 31, 40], let s := running 0b000 (BitVec.ofNat 6 k) []
      s.busy = true ∧ cmdOp s.cur = .init ∧ s.upc.toNat = k := by decide

/-- The places of `witness_ResetPatternSendsThreeBytes` to `witness_CalibrationWordLayouts`, with no input. -/
theorem witness_SequencesAreTheirSteps :
    ∀ place ∈ [(CmdOp.sreset, 1), (.init, 3), (.init, 34), (.gett, 2), (.getp, 2), (.getp, 12), (.init, 10),
        (.init, 37), (.gett, 1), (.getp, 11), (.getp, 1), (.init, 13),
        (.init, 22), (.init, 31), (.init, 40), (.gett, 9), (.getp, 9), (.getp, 19)],
      ∃ cur : BitVec 3, let s := running cur (BitVec.ofNat 6 place.2) []
        s.busy = true ∧ s.inputs = [] ∧ (cmdOp s.cur, s.upc.toNat) = place := by decide

/-- A state whose answers are the bytes 0, 1, 2 and so on. -/
def counting (w : BitVec 3) (n : Nat) : State :=
  { idle with inputs := [.command w], replies := answers (fun k => BitVec.ofNat 8 k) n }

theorem witness_InitRunsToReady :
    ∀ unit : Bool, let s := counting (bit unit ++ (0b00 : BitVec 2)) 41
      s.busy = false ∧ s.inputs = [.command (bit unit ++ (0b00 : BitVec 2))] ∧
      s.replies = answers (fun k => BitVec.ofNat 8 k) 41 ++ [] := by decide

theorem witness_SresetRuns :
    let s := counting (bit true ++ (0b01 : BitVec 2)) 4
    s.busy = false ∧ s.inputs = [.command (bit true ++ (0b01 : BitVec 2))] ∧
    s.replies = answers (fun k => BitVec.ofNat 8 k) 4 ++ [] := by decide

theorem witness_GettRuns :
    let s := counting (bit false ++ (0b10 : BitVec 2)) 10
    s.busy = false ∧ s.inputs = [.command (bit false ++ (0b10 : BitVec 2))] ∧ s.lc = .ready ∧
    s.replies = answers (fun k => BitVec.ofNat 8 k) 10 ++ [] := by decide

theorem witness_GetpRuns :
    ∀ unit : Bool, let s := counting (bit unit ++ (0b11 : BitVec 2)) 20
      s.busy = false ∧ s.inputs = [.command (bit unit ++ (0b11 : BitVec 2))] ∧ s.lc = .ready ∧
      s.replies = answers (fun k => BitVec.ofNat 8 k) 20 ++ [] := by decide

theorem witness_QueryBeforeInitFails :
    let s := { fresh with inputs := [.command 0b111] }
    s.busy = false ∧ s.inputs = [.command 0b111] ∧ isQuery 0b111 ∧ s.lc = .uninitialized := by decide

/-- Two blocks that differ in what earlier commands left behind, for each of the two queries. -/
theorem witness_NoCachingAcrossQueries :
    ∀ q ∈ [((0b010 : BitVec 3), 13), (0b111, 23)],
      let s := counting q.1 20
      let s' := { s with d1 := 1, d2 := 2, temp := 3, res := 4, hi := 5, trace := [.cfg] }
      isQuery q.1 ∧ q.2 = lastIndex (cmdOp q.1) + 2 ∧ s.busy = false ∧ s'.busy = false ∧
      s.inputs = [.command q.1] ∧ s'.inputs = [.command q.1] ∧ s.lc = .ready ∧ s'.lc = .ready ∧
      s.coeffs = s'.coeffs ∧ s.par = s'.par ∧ s.replies = answers (fun k => BitVec.ofNat 8 k) 20 ∧
      s'.replies = answers (fun k => BitVec.ofNat 8 k) 20 := by decide

theorem witness_HardwareResetLeavesTheOutside :
    StandsAt { running 0b000 0 [] with replies := [.never, .completes 1] } .cfg ∧
    isPortRequest .cfg = true ∧
    { running 0b000 0 [] with replies := [.never, .completes 1] }.replies = .never :: [.completes 1] :=
  ⟨stands rfl rfl, rfl, rfl⟩

/-- A block at `CMPT` whose next request will not be completed. -/
def hangingCmpt : State := { running 0b010 11 [] with replies := [.never] }

/-- No request is outstanding there. -/
theorem witness_HardwareResetLeavesTheOutside_internal :
    ¬(∃ i rest, StandsAt hangingCmpt i ∧ isPortRequest i = true ∧ hangingCmpt.replies = .never :: rest) := by
  rintro ⟨i, rest, ⟨-, h⟩, hi, -⟩
  have hm : microOp hangingCmpt.par hangingCmpt.cur hangingCmpt.upc = some (.cmpt false) := rfl
  rw [hm, Option.some.injEq] at h
  subst h
  cases hi

theorem witness_HardwareResetWins :
    { running 0b000 42 [] with inputs := [.reset, .command 1] }.inputs = [.reset, .command 1] := rfl

/-- The invariant holds of an idle block in `Ready` and of a query in its middle. -/
theorem witness_StepKeepsInvariant : Inv idle ∧ Inv (running 0b010 7 [1]) := by
  constructor <;> constructor <;> first | decide | (unfold registersFit fitsIn; decide)

theorem witness_StepKeepsTheTraceInOrder :
    TraceSync { running 0b001 1 [7] with trace := [.wait 35, .mode .a] } ∧
    step { running 0b001 1 [7] with trace := [.wait 35, .mode .a] } =
      .next { running 0b001 2 [] with trace := [.wait 35, .mode .a, .xfer 0x15 7] } := by
  exact ⟨by unfold TraceSync; decide, rfl⟩

theorem witness_EveryTransactionIsResetFirst :
    let s := { running 0b001 1 [7] with trace := [.mode .a] }
    firstBytesDistinct s.par = true ∧ TraceSync s ∧ transactionsResetFirst s.par s.trace ∧
    step s = .next { running 0b001 2 [] with trace := [.mode .a, .xfer 0x15 7] } := by
  refine ⟨by decide, by unfold TraceSync; decide, ?_, rfl⟩
  intro before out inn later h
  rcases before with _ | ⟨e, _ | ⟨e', before⟩⟩ <;> simp at h

/-- The first byte of an acquisition, after its reset sequence. -/
theorem witness_EveryTransactionIsResetFirst_byte :
    let s := { running 0b010 5 [7] with trace := [.mode .a, .xfer 0x15 1, .xfer 0x55 2, .xfer 0x40 3] }
    TraceSync s ∧ isFirstCommandByte s.par 0x0F = true ∧
    step s = .next { s with trace := s.trace ++ [.xfer 0x0F 7], upc := 6, replies := [] } := by
  exact ⟨by unfold TraceSync; decide, by decide, rfl⟩

theorem witness_RunsResetBeforeEveryTransaction : firstBytesDistinct par0 = true := by decide

theorem witness_ClockModeDiscipline_tx :
    TraceSync { running 0b001 1 [7] with trace := [.mode .a] } ∧
    StandsAt { running 0b001 1 [7] with trace := [.mode .a] } (.tx 0x15) :=
  ⟨by unfold TraceSync; decide, stands rfl rfl⟩

theorem witness_ClockModeDiscipline_rx :
    let s := { running 0b010 9 [7] with
      trace := [.mode .a, .xfer 0x15 1, .xfer 0x55 2, .xfer 0x40 3, .xfer 0x0F 4, .xfer 0x20 5, .wait 35,
        .mode .b] }
    TraceSync s ∧ StandsAt s .rx := ⟨by unfold TraceSync; decide, stands rfl rfl⟩

/-- Also of `NoStepChangesTheRom` and `AtMostOneEventAStep`: `INIT` begins and clears `LC`. -/
theorem witness_OnlyInitChangesTheLifecycle_begin :
    step (running 0b000 0 [1]) =
      .next { running 0b000 1 [] with lc := .uninitialized, trace := [.cfg] } ∧
    (running 0b000 0 [1]).inputs.head? ≠ some .reset := ⟨rfl, by decide⟩

/-- `INIT` ends, sets `LC` and writes new coefficients. -/
theorem witness_OnlyInitChangesTheLifecycle_end :
    let s := { running 0b000 42 [] with lc := .uninitialized, wd := ⟨0x1234, 0x5678, 0x9ABC, 0xDEF0⟩ }
    step s = .next { s with lc := .ready, coeffs := ⟨2330, 3888, 891, 618, 345, 56⟩, busy := false } ∧
    s.inputs.head? ≠ some .reset := ⟨rfl, by decide⟩

theorem witness_OnlyHardwareResetClearsAuxen :
    after (step { idle with inputs := [.reset] }) (fun t => t.auxen) = some false ∧
    idle.auxen = true := by decide

/-- P2 and P3: the last micro-operation of each query. -/
theorem witness_ResultsChangeOnlyInTheLastStep :
    after (step (running 0b010 11 [])) (fun t => (t.temp, t.res, t.rkind)) =
      some (391, 391, .temperature) ∧
    after (step (running 0b011 21 [])) (fun t => (t.temp, t.tcorr, t.pcomp, t.pcorr, t.res, t.rkind)) =
      some (391, 391, 9716, 9716, 9716, .pressureMbar) ∧
    (running 0b011 21 []).inputs.head? ≠ some .reset := by decide

/-- Each of the registers is changed by some step. -/
theorem witness_RawRegistersAreWrittenByTheirReads :
    after (step (running 0b000 14 [0])) (fun t => t.wd.w0) = some 0x1200 ∧
    after (step (running 0b000 41 [0])) (fun t => t.wd.w3) = some 0x1200 ∧
    after (step (running 0b011 10 [0])) (fun t => t.d1) = some 0x1200 ∧
    after (step (running 0b010 10 [0])) (fun t => t.d2) = some 0x1200 ∧
    after (step (running 0b011 20 [0])) (fun t => t.d2) = some 0x1200 ∧
    (running 0b011 20 [0]).inputs.head? ≠ some .reset := by decide

/-- A command that completes, a query that fails, and `CMPT` completing while the next answer is `never`. -/
theorem witness_ErrIsWrittenAtCompletion :
    after (step { running 0b001 3 [0] with err := .uninit }) (fun t => (t.busy, t.err)) =
      some (false, .none) ∧
    after (step { running 0b010 0 [0] with lc := .uninitialized }) (fun t => (t.busy, t.err)) =
      some (false, .uninit) ∧
    after (step { running 0b010 11 [] with replies := [.never], err := .uninit })
      (fun t => (t.busy, t.err)) = some (false, .none) ∧
    (running 0b001 3 [0]).inputs.head? ≠ some .reset ∧ (running 0b001 3 [0]).busy = true := by decide

end Sys2Proof.Tests
end

/-! The interval arithmetic of R98: how the shift and the product carry an interval on, and then the values of the
compensation pipeline in the order of R99 to R111. -/

namespace Sys2Proof.Machine

/-! ### Intervals -/

/-- The shift is monotone, so the shifts of the two ends bound the shifted value. -/
theorem asr_bounds {v a b lo hi : Int} (n : Nat) (hv : a ≤ v ∧ v ≤ b) (hlo : lo ≤ asr a n)
    (hhi : asr b n ≤ hi) : lo ≤ asr v n ∧ asr v n ≤ hi :=
  ⟨hlo.trans (asr_mono n hv.1), (asr_mono n hv.2).trans hhi⟩

/-- A product is linear in its first factor, so its values at the two ends of that factor bound it. -/
theorem mul_bounds_of_ends {a b x y lo hi : Int} (hx : a ≤ x ∧ x ≤ b)
    (ha : lo ≤ a * y ∧ a * y ≤ hi) (hb : lo ≤ b * y ∧ b * y ≤ hi) : lo ≤ x * y ∧ x * y ≤ hi := by
  rcases le_total 0 y with hy | hy
  · have hax := mul_le_mul_of_nonneg_right hx.1 hy
    have hxb := mul_le_mul_of_nonneg_right hx.2 hy
    omega
  · have hxa := mul_le_mul_of_nonpos_right hx.1 hy
    have hbx := mul_le_mul_of_nonpos_right hx.2 hy
    omega

/-- The four corners of a rectangle bound the product on it. -/
theorem mul_bounds {a b c d x y lo hi : Int} (hx : a ≤ x ∧ x ≤ b) (hy : c ≤ y ∧ y ≤ d)
    (corners : ∀ p ∈ [a * c, a * d, b * c, b * d], lo ≤ p ∧ p ≤ hi) : lo ≤ x * y ∧ x * y ≤ hi := by
  simp only [List.forall_mem_cons] at corners
  obtain ⟨hac, had, hbc, hbd, -⟩ := corners
  have edge {e : Int} (hc : lo ≤ e * c ∧ e * c ≤ hi) (hd : lo ≤ e * d ∧ e * d ≤ hi) :
      lo ≤ e * y ∧ e * y ≤ hi := by
    rw [mul_comm] at hc hd ⊢
    exact mul_bounds_of_ends hy hc hd
  exact mul_bounds_of_ends hx (edge hac had) (edge hbc hbd)

/-- Squaring is monotone on what is not negative. -/
theorem sq_bounds {x b : Int} (hx : 0 ≤ x ∧ x ≤ b) : 0 ≤ x ^ 2 ∧ x ^ 2 ≤ b ^ 2 :=
  ⟨sq_nonneg x, pow_le_pow_left₀ hx.1 hx.2 2⟩

/-! ### The pipeline, for coefficients in their ranges (R98) -/

section
variable {c : Coeffs} {dT t p : Int}

theorem deltaT_bounds (hc : c.inRange) (d2 : RawWord) :
    -36600 ≤ deltaT c d2 ∧ deltaT c d2 ≤ 45311 := by
  obtain ⟨-, -, -, -, h5, -⟩ := hc
  have h0 := zext_nonneg d2
  have h1 := zext_le d2
  unfold deltaT ut1
  omega

theorem temperature_bounds (hc : c.inRange) (hdT : -36600 ≤ dT ∧ dT ≤ 45311) :
    -3839 ≤ temperature c dT ∧ temperature c dT ≤ 5200 := by
  obtain ⟨-, -, -, -, -, h6⟩ := hc
  have hgain : 50 ≤ c.c6 + 50 ∧ c.c6 + 50 ≤ 113 := by omega
  have hprod : -4135800 ≤ dT * (c.c6 + 50) ∧ dT * (c.c6 + 50) ≤ 5120143 :=
    mul_bounds hdT hgain (by decide)
  have hasr := asr_bounds (lo := -4039) (hi := 5000) 10 hprod (by decide) (by decide)
  unfold temperature
  omega

theorem offset_bounds (hc : c.inRange) (hdT : -36600 ≤ dT ∧ dT ≤ 45311) :
    -5664 ≤ offset c dT ∧ offset c dT ≤ 22032 := by
  obtain ⟨-, h2, -, h4, -, -⟩ := hc
  have hgain : -512 ≤ c.c4 - 512 ∧ c.c4 - 512 ≤ 511 := by omega
  have hprod : -23199232 ≤ (c.c4 - 512) * dT ∧ (c.c4 - 512) * dT ≤ 23153921 :=
    mul_bounds hgain hdT (by decide)
  have hasr := asr_bounds (lo := -5664) (hi := 5652) 12 hprod (by decide) (by decide)
  unfold offset
  omega

theorem sensitivity_bounds (hc : c.inRange) (hdT : -36600 ≤ dT ∧ dT ≤ 45311) :
    -11989 ≤ sensitivity c dT ∧ sensitivity c dT ≤ 102609 := by
  obtain ⟨h1, -, h3, -, -, -⟩ := hc
  have hprod : -37441800 ≤ c.c3 * dT ∧ c.c3 * dT ≤ 46353153 := mul_bounds h3 hdT (by decide)
  have hasr := asr_bounds (lo := -36565) (hi := 45266) 10 hprod (by decide) (by decide)
  unfold sensitivity
  omega

theorem xValue_bounds {sens off : Int} (hsens : -11989 ≤ sens ∧ sens ≤ 102609)
    (hoff : -5664 ≤ off ∧ off ≤ 22032) (d1 : RawWord) :
    -66924 ≤ xValue sens off d1 ∧ xValue sens off d1 ≤ 371202 := by
  have h0 := zext_nonneg d1
  have h1 := zext_le d1
  have hd1 : -7168 ≤ zext d1 - 7168 ∧ zext d1 - 7168 ≤ 58367 := by omega
  have hprod : -735501312 ≤ sens * (zext d1 - 7168) ∧ sens * (zext d1 - 7168) ≤ 5988979503 :=
    mul_bounds hsens hd1 (by decide)
  have hasr := asr_bounds (lo := -44892) (hi := 365538) 14 hprod (by decide) (by decide)
  unfold xValue
  omega

theorem firstOrderPressure_bounds (hc : c.inRange) (hdT : -36600 ≤ dT ∧ dT ≤ 45311)
    (d1 : RawWord) :
    -18414 ≤ firstOrderPressure c dT d1 ∧ firstOrderPressure c dT d1 ≤ 118500 := by
  have hx := xValue_bounds (sensitivity_bounds hc hdT) (offset_bounds hc hdT) d1
  have hasr := asr_bounds (lo := -20914) (hi := 116000) (a := -669240) (b := 3712020) 5
    (v := xValue (sensitivity c dT) (offset c dT) d1 * 10) (by omega) (by decide) (by decide)
  unfold firstOrderPressure pressureOf
  omega

/-! ### The second-order corrections, branch by branch (R106 to R109) -/

theorem correctionBranch_eq_low : correctionBranch t = .low ↔ t < 200 := by
  unfold correctionBranch; grind

theorem correctionBranch_eq_high : correctionBranch t = .high ↔ 450 < t := by
  unfold correctionBranch; grind

theorem t2_bounds_low (hc : c.inRange) (ht : -3839 ≤ t) (hb : correctionBranch t = .low) :
    0 ≤ t2 c t ∧ t2 c t ≤ 14888 := by
  obtain ⟨-, -, -, -, -, h6⟩ := hc
  have hlt := correctionBranch_eq_low.mp hb
  have hgain : 264 ≤ 11 * (c.c6 + 24) ∧ 11 * (c.c6 + 24) ≤ 957 := by omega
  have hsq : 0 ≤ (200 - t) ^ 2 ∧ (200 - t) ^ 2 ≤ 4039 ^ 2 := sq_bounds (by omega)
  simpa only [t2, hb] using
    asr_bounds (lo := 0) (hi := 14888) (a := 0) (b := 15612039597) 20
      (mul_bounds hgain hsq (by decide)) (by decide) (by decide)

theorem t2_bounds_high (hc : c.inRange) (ht : t ≤ 5200) (hb : correctionBranch t = .high) :
    0 ≤ t2 c t ∧ t2 c t ≤ 5616 := by
  obtain ⟨-, -, -, -, -, h6⟩ := hc
  have hlt := correctionBranch_eq_high.mp hb
  have hgain : 72 ≤ 3 * (c.c6 + 24) ∧ 3 * (c.c6 + 24) ≤ 261 := by omega
  have hsq : 0 ≤ (450 - t) ^ 2 ∧ (450 - t) ^ 2 ≤ 4750 ^ 2 := by
    rw [← neg_sq]
    exact sq_bounds (by omega)
  simpa only [t2, hb] using
    asr_bounds (lo := 0) (hi := 5616) (a := 0) (b := 5888812500) 20
      (mul_bounds hgain hsq (by decide)) (by decide) (by decide)

/-- `TCORR` (R98). -/
theorem temperature_sub_t2_bounds (hc : c.inRange) (ht : -3839 ≤ t ∧ t ≤ 5200) :
    -18727 ≤ t - t2 c t ∧ t - t2 c t ≤ 5200 := by
  cases hb : correctionBranch t with
  | low => have := t2_bounds_low hc ht.1 hb; omega
  | high =>
    have hlt := correctionBranch_eq_high.mp hb
    have := t2_bounds_high hc ht.2 hb
    omega
  | none => simp only [t2, hb]; omega

/-- `P2` in any branch: the interval of the low branch, which holds that of the high one (R98). -/
theorem p2_bounds (hc : c.inRange) (ht : -3839 ≤ t ∧ t ≤ 5200)
    (hp : -18414 ≤ p ∧ p ≤ 118500) : -59740 ≤ p2 c t p ∧ p2 c t p ≤ 313498 := by
  cases hb : correctionBranch t with
  | low =>
    have ht2 := t2_bounds_low hc ht.1 hb
    have hfactor : 0 ≤ 3 * t2 c t ∧ 3 * t2 c t ≤ 44664 := by omega
    have hdist : -21914 ≤ p - 3500 ∧ p - 3500 ≤ 115000 := by omega
    have hprod : -978766896 ≤ 3 * t2 c t * (p - 3500) ∧ 3 * t2 c t * (p - 3500) ≤ 5136360000 :=
      mul_bounds hfactor hdist (by decide)
    simpa only [p2, hb] using asr_bounds 14 hprod (by decide) (by decide)
  | high =>
    have hdist : -28414 ≤ p - 10000 ∧ p - 10000 ≤ 108500 := by omega
    have hprod : -159573024 ≤ t2 c t * (p - 10000) ∧ t2 c t * (p - 10000) ≤ 609336000 :=
      mul_bounds (t2_bounds_high hc ht.2 hb) hdist (by decide)
    simpa only [p2, hb] using asr_bounds 13 hprod (by decide) (by decide)
  | none => simp [p2, hb]

end

/-! ### What `CMPP` writes -/

/-- `CMPP` always completes, with the first-order and the corrected values in the output registers and the
one its unit selects in `RES` (R114). -/
theorem exec_cmpp_results (s : State) (unit : PressureUnit) :
    ∃ t, exec (.cmpp unit) s = .next t ∧
      t.temp = temperature s.coeffs (deltaT s.coeffs s.d2) ∧
      t.tcorr = t.temp - t2 s.coeffs t.temp ∧
      t.pcomp = firstOrderPressure s.coeffs (deltaT s.coeffs s.d2) s.d1 ∧
      t.pcorr = t.pcomp - p2 s.coeffs t.temp t.pcomp ∧
      t.res = match unit with | .millibar => t.pcorr | .mmHg => millionthsMmhg t.pcomp := by
  refine ⟨_, rfl, ?_⟩
  cases unit <;> simp

end Sys2Proof.Machine

namespace Sys2Proof.Proofs

open Sys2Proof.Machine

/-- Settles O28: the intervals of the pipeline, carried from `dT` to the four output registers, and with them
both values `RES` can take. -/
theorem resultsStayInTheirIntervals : Obligations.ResultsStayInTheirIntervals := by
  intro s unit hc
  obtain ⟨t, hexec, htemp, htcorr, hpcomp, hpcorr, hres⟩ := exec_cmpp_results s unit
  have hdT := deltaT_bounds hc s.d2
  have ht : -3839 ≤ t.temp ∧ t.temp ≤ 5200 := htemp ▸ temperature_bounds hc hdT
  have hp : -18414 ≤ t.pcomp ∧ t.pcomp ≤ 118500 := hpcomp ▸ firstOrderPressure_bounds hc hdT s.d1
  have htc := temperature_sub_t2_bounds hc ht
  have hp2 := p2_bounds hc ht hp
  have hpc : -331912 ≤ t.pcorr ∧ t.pcorr ≤ 178240 := by omega
  refine ⟨t, hexec, ht, htcorr ▸ htc, hp, hpc, ?_⟩
  unfold fitsIn
  cases unit with
  | millibar => simp only [hres]; omega
  | mmHg => simp only [hres, millionthsMmhg]; omega

end Sys2Proof.Proofs

/-! What one step adds to the trace: a port request or `AUXON` adds its one event, and everything else none. -/

namespace Sys2Proof.Machine

/-- The micro-programs hold single micro-operations only: no host command, no sequence, no word read (R125). -/
theorem microOp_cases {p : Params} {cur : BitVec 3} {upc : BitVec 6} {i : Instr}
    (h : microOp p cur upc = some i) :
    i = .cfg ∨ i = .auxon ∨ i = .modeA ∨ i = .modeB ∨ i = .rx ∨ (∃ b, i = .tx b) ∨
    (∃ n, i = .wait n) ∨ (∃ unit k, i = .chk unit k) ∨ (∃ unit, i = .dec unit) ∨
    (∃ unit, i = .cmpt unit) ∨ (∃ u, i = .cmpp u) := by
  obtain ⟨slot, hslot, rfl⟩ := microOp_eq_some.mp h
  obtain ⟨q, hq, -⟩ := place_of_slotAt hslot
  cases slot with
  | op i => cases i <;> simp_all [Slot.instr, Slot.place]
  | rxh => simp [Slot.instr]
  | rxl dst => simp [Slot.instr]

/-- `t` has the trace of `s`, or one event more at its end. -/
def AddsAtMostOneEvent (s t : State) : Prop := t.trace = s.trace ∨ ∃ e, t.trace = s.trace ++ [e]

theorem AddsAtMostOneEvent.of_next {s t u : State}
    (h : (.next u : Host.Outcome State Fault Refusal) = .next t) (hu : AddsAtMostOneEvent s u) :
    AddsAtMostOneEvent s t := Host.Outcome.next.inj h ▸ hu

/-- A micro-operation that completes only with one event more adds that event or, uncompleted, nothing. -/
theorem perform_addsAtMostOneEvent {m : State → Option State} {s : State}
    (h : ∀ t, m s = some t → ∃ e, t.trace = s.trace ++ [e]) :
    AddsAtMostOneEvent s (s.perform m) := by
  rcases s.perform_cases m with ⟨t, hm, ht⟩ | ⟨-, ht⟩
  · obtain ⟨e, he⟩ := h t hm
    exact .inr ⟨e, by rw [ht, State.complete_trace, he]⟩
  · exact .inl (by rw [ht])

theorem request_trace {e : Event} {s t : State} (h : request e s = some t) :
    t.trace = s.trace ++ [e] := by
  obtain ⟨-, rfl⟩ := (request_eq_some e).mp h
  simp

theorem rxOp_trace {target : RxTarget} {s t : State} (h : rxOp target s = some t) :
    t.trace = s.trace ++ [.xfer s.par.dummy s.answer] := by
  obtain ⟨-, rfl⟩ := (rxOp_eq_some target).mp h
  simp

theorem auxonOp_trace {s t : State} (h : auxonOp s = some t) : t.trace = s.trace ++ [.auxOn] := by
  obtain rfl := Option.some.inj h
  rfl

theorem perform_request_addsAtMostOneEvent (e : State → Event) (s : State) :
    AddsAtMostOneEvent s (s.perform fun u => request (e u) u) :=
  perform_addsAtMostOneEvent fun _ h => ⟨_, request_trace h⟩

theorem execChk_trace {unit k : Bool} {s t : State} (h : execChk unit k s = .next t) :
    t.trace = s.trace := by
  unfold execChk at h
  cases hl : s.lc <;> simp only [hl, Host.Outcome.next.injEq] at h <;> simp [← h]

/-- Each micro-operation of a micro-program (R49, R118). -/
theorem exec_microOp_addsAtMostOneEvent {p : Params} {cur : BitVec 3} {upc : BitVec 6} {i : Instr}
    {s t : State} (hi : microOp p cur upc = some i) (h : exec i s = .next t) :
    AddsAtMostOneEvent s t := by
  rcases microOp_cases hi with rfl | rfl | rfl | rfl | rfl | ⟨b, rfl⟩ | ⟨n, rfl⟩ | ⟨unit, k, rfl⟩ |
    ⟨unit, rfl⟩ | ⟨unit, rfl⟩ | ⟨u, rfl⟩
  · exact .of_next h (perform_request_addsAtMostOneEvent (fun _ => .cfg) s)
  · exact .of_next h (perform_addsAtMostOneEvent fun _ ht => ⟨_, auxonOp_trace ht⟩)
  · exact .of_next h (perform_request_addsAtMostOneEvent (fun _ => .mode .a) s)
  · exact .of_next h (perform_request_addsAtMostOneEvent (fun _ => .mode .b) s)
  · exact .of_next h (perform_addsAtMostOneEvent fun _ ht => ⟨_, rxOp_trace ht⟩)
  · exact .of_next h (perform_request_addsAtMostOneEvent (fun u => .xfer b u.answer) s)
  · exact .of_next h (perform_request_addsAtMostOneEvent (fun _ => .wait n) s)
  · exact .inl (execChk_trace (unit := unit) (k := k) h)
  · exact .of_next h (.inl (State.complete_trace _))
  · exact .of_next h (.inl (State.complete_trace _))
  · exact .of_next h (.inl (State.complete_trace _))

end Sys2Proof.Machine

namespace Sys2Proof.Proofs

open Sys2Proof.Machine

/-- Settles O55, by the four things a step can be: only the micro-operation of a running command emits. -/
theorem atMostOneEventAStep : Obligations.AtMostOneEventAStep := by
  intro s t hstep hreset
  rcases step_cases hstep with ⟨rest, hr, -⟩ | ⟨-, -, i, hi, hx⟩ | ⟨-, w, rest, -, rfl⟩ | ⟨-, rfl⟩
  · exact absurd (by rw [hr]; rfl) hreset
  · have h := exec_microOp_addsAtMostOneEvent hi hx
    simpa only [AddsAtMostOneEvent, State.consumeInput_trace] using h
  · exact .inl rfl
  · exact .inl s.consumeInput_trace

end Sys2Proof.Proofs

/-! What the outside sees of a state. -/

namespace Sys2Proof.Machine

/-! The host's codes tell the values of a status register apart, and are the numbers of the spec. -/

theorem Lifecycle.code_inj {a b : Lifecycle} : a.code = b.code ↔ a = b := by
  cases a <;> cases b <;> decide

theorem ResultKind.code_inj {a b : ResultKind} : a.code = b.code ↔ a = b := by
  cases a <;> cases b <;> decide

theorem ErrCode.code_inj {a b : ErrCode} : a.code = b.code ↔ a = b := by
  cases a <;> cases b <;> decide

theorem Lifecycle.code_toNat (a : Lifecycle) : a.code.toNat = Claim.lcCode a := by cases a <;> rfl

theorem ResultKind.code_toNat (a : ResultKind) : a.code.toNat = Claim.rkindCode a := by
  cases a <;> rfl

theorem ErrCode.code_toNat (a : ErrCode) : a.code.toNat = Claim.errCode a := by cases a <;> rfl

/-- Equal observations are equal traces and equal host-readable registers (R21, R22). -/
theorem observe_eq_iff (s t : State) : s.observe = t.observe ↔
    s.trace = t.trace ∧ s.lc = t.lc ∧ s.coeffs = t.coeffs ∧ s.temp = t.temp ∧ s.tcorr = t.tcorr ∧
    s.pcomp = t.pcomp ∧ s.pcorr = t.pcorr ∧ s.res = t.res ∧ s.rkind = t.rkind ∧ s.err = t.err ∧
    s.auxen = t.auxen ∧ s.busy = t.busy := by
  simp only [State.observe, State.hostView, Prod.mk.injEq, HostView.mk.injEq, Lifecycle.code_inj,
    ResultKind.code_inj, ErrCode.code_inj]

end Sys2Proof.Machine

namespace Sys2Proof.Proofs

open Sys2Proof.Machine

/-- Settles O58: the codes are injective and are those of the spec, and no hidden register is in the view. -/
theorem hiddenRegistersAreNotObserved : Obligations.HiddenRegistersAreNotObserved :=
  ⟨observe_eq_iff,
   fun s => ⟨rfl, s.lc.code_toNat, s.rkind.code_toNat, s.err.code_toNat, rfl, rfl, rfl, rfl, rfl, rfl,
     rfl, rfl, rfl⟩,
   fun _ _ _ _ _ _ _ => rfl⟩

end Sys2Proof.Proofs

/-! The decoder as arithmetic on the words (R66 to R69, R89 to R94), and the words a coefficient set packs into. -/

namespace Sys2Proof.Machine

theorem f1_toNat (w0 : RawWord) : (f1 w0).toNat = w0.toNat / 2 := by
  have := w0.isLt
  simp only [f1, BitVec.toNat_and, BitVec.toNat_ushiftRight, Nat.shiftRight_eq_div_pow]
  rw [show (0x7FFF : RawWord).toNat = 2 ^ 15 - 1 from rfl, Nat.and_two_pow_sub_one_eq_mod]
  omega

/-- The upper ten bits of a word, which hold `C3`, `C4` and the low part of `C5`. -/
theorem upper_ten_bits_toNat (w : RawWord) : ((w >>> 6) &&& 0x3FF).toNat = w.toNat / 64 := by
  have := w.isLt
  simp only [BitVec.toNat_and, BitVec.toNat_ushiftRight, Nat.shiftRight_eq_div_pow]
  rw [show (0x3FF : RawWord).toNat = 2 ^ 10 - 1 from rfl, Nat.and_two_pow_sub_one_eq_mod]
  omega

theorem lower_six_bits_toNat (w : RawWord) : (w &&& 0x3F).toNat = w.toNat % 64 := by
  rw [BitVec.toNat_and, show (0x3F : RawWord).toNat = 2 ^ 6 - 1 from rfl,
    Nat.and_two_pow_sub_one_eq_mod]

theorem lowest_bit_toNat (w : RawWord) : (w &&& 0x1).toNat = w.toNat % 2 := by
  rw [BitVec.toNat_and, show (0x1 : RawWord).toNat = 2 ^ 1 - 1 from rfl,
    Nat.and_two_pow_sub_one_eq_mod]

/-- A field put above another that does not reach into it is the sum of the two. -/
theorem shiftLeft_or_toNat {a b : RawWord} {n : Nat} (ha : a.toNat * 2 ^ n < 2 ^ 16)
    (hb : b.toNat < 2 ^ n) : ((a <<< n) ||| b).toNat = a.toNat * 2 ^ n + b.toNat := by
  rw [BitVec.toNat_or, BitVec.toNat_shiftLeft, Nat.shiftLeft_eq, Nat.mod_eq_of_lt ha,
    ← Nat.shiftLeft_eq, Nat.shiftLeft_add_eq_or_of_lt hb]

theorem f2_toNat (w2 w3 : RawWord) :
    (f2 w2 w3).toNat = w2.toNat % 64 * 64 + w3.toNat % 64 := by
  have h2 := lower_six_bits_toNat w2
  have h3 := lower_six_bits_toNat w3
  rw [f2, shiftLeft_or_toNat (by omega) (by omega), h2, h3, show 2 ^ 6 = 64 from rfl]

theorem f5_toNat (w0 w1 : RawWord) :
    (f5 w0 w1).toNat = w0.toNat % 2 * 1024 + w1.toNat / 64 := by
  have h0 := lowest_bit_toNat w0
  have h1 := upper_ten_bits_toNat w1
  have := w1.isLt
  rw [f5, shiftLeft_or_toNat (by omega) (by omega), h0, h1, show 2 ^ 10 = 1024 from rfl]

/-- The six extractions are the quotients and remainders of the layouts (R66 to R69). -/
theorem decodeWords_eq_coefficients (w : RawWords) : decodeWords w = Claim.coefficients w := by
  simp only [decodeWords, Claim.coefficients, zext, f1_toNat, f2_toNat, f5_toNat,
    f3, f4, f6, upper_ten_bits_toNat, lower_six_bits_toNat]

/-- The packing keeps every coefficient in its range (R24). -/
theorem decodeWords_inRange (w : RawWords) : (decodeWords w).inRange := by
  have h0 := w.w0.isLt
  have h1 := w.w1.isLt
  have h2 := w.w2.isLt
  have h3 := w.w3.isLt
  rw [decodeWords_eq_coefficients]
  simp only [Coeffs.inRange, Claim.coefficients]
  omega

/-- Every bit of the four words is a bit of a coefficient (R70). -/
theorem decodeWords_injective {w w' : RawWords} (h : decodeWords w = decodeWords w') : w = w' := by
  simp only [decodeWords_eq_coefficients, Claim.coefficients, Coeffs.mk.injEq] at h
  obtain ⟨h1, h2, h3, h4, h5, h6⟩ := h
  have e0 : w.w0 = w'.w0 := BitVec.eq_of_toNat_eq (by omega)
  have e1 : w.w1 = w'.w1 := BitVec.eq_of_toNat_eq (by omega)
  have e2 : w.w2 = w'.w2 := BitVec.eq_of_toNat_eq (by omega)
  have e3 : w.w3 = w'.w3 := BitVec.eq_of_toNat_eq (by omega)
  cases w; cases w'
  simp_all only

/-- The words that hold a coefficient set, by the layouts of R66 to R69. -/
def packWords (c : Coeffs) : RawWords where
  w0 := BitVec.ofInt 16 (c.c1 * 2 + c.c5 / 1024)
  w1 := BitVec.ofInt 16 (c.c5 % 1024 * 64 + c.c6)
  w2 := BitVec.ofInt 16 (c.c4 * 64 + c.c2 / 64)
  w3 := BitVec.ofInt 16 (c.c3 * 64 + c.c2 % 64)

theorem toNat_ofInt_of_word {v : Int} (h0 : 0 ≤ v) (h1 : v < 65536) :
    ((BitVec.ofInt 16 v).toNat : Int) = v := by
  rw [BitVec.toNat_ofInt]
  omega

theorem decodeWords_packWords {c : Coeffs} (hc : c.inRange) : decodeWords (packWords c) = c := by
  obtain ⟨h1, h2, h3, h4, h5, h6⟩ := hc
  have e0 := toNat_ofInt_of_word (v := c.c1 * 2 + c.c5 / 1024) (by omega) (by omega)
  have e1 := toNat_ofInt_of_word (v := c.c5 % 1024 * 64 + c.c6) (by omega) (by omega)
  have e2 := toNat_ofInt_of_word (v := c.c4 * 64 + c.c2 / 64) (by omega) (by omega)
  have e3 := toNat_ofInt_of_word (v := c.c3 * 64 + c.c2 % 64) (by omega) (by omega)
  rw [decodeWords_eq_coefficients]
  cases c
  simp only [Claim.coefficients, packWords, Coeffs.mk.injEq, Nat.cast_add, Nat.cast_mul,
    Nat.cast_ofNat, Int.natCast_div, Int.natCast_mod, e0, e1, e2, e3]
  dsimp only at *
  omega

/-! The second-order temperature correction is never negative: `C6 + 24` is positive and the distance from
the threshold is squared (R107, R108). -/

theorem t2_nonneg {c : Coeffs} (hc : c.inRange) (t : Int) : 0 ≤ t2 c t := by
  obtain ⟨-, -, -, -, -, h6, -⟩ := hc
  have hgain : 0 ≤ c.c6 + 24 := by omega
  unfold t2
  cases correctionBranch t with
  | low => exact asr_nonneg 20 (by positivity)
  | high => exact asr_nonneg 20 (by positivity)
  | none => exact le_refl 0

end Sys2Proof.Machine

namespace Sys2Proof.Proofs

open Sys2Proof.Machine

/-- Settles O5: the arithmetic of the fields gives the ranges and injectivity, and packing gives
surjectivity. -/
theorem coefficientsFillTheWords : Obligations.CoefficientsFillTheWords :=
  ⟨decodeWords_inRange, fun _ _ => decodeWords_injective,
   fun c hc => ⟨packWords c, decodeWords_packWords hc⟩⟩

/-- Settles O26: `CMPP` subtracts a correction that is not negative. -/
theorem correctionLowersTheTemperature : Obligations.CorrectionLowersTheTemperature := by
  intro s unit hc
  obtain ⟨t, hexec, -, htcorr, -, -, -⟩ := exec_cmpp_results s unit
  have := t2_nonneg hc t.temp
  exact ⟨t, hexec, by omega⟩

end Sys2Proof.Proofs

/-! What one micro-operation does, said once: where it can stand, what it writes of its own, and what its
completion adds. The statements about every step are read off this. -/

namespace Sys2Proof.Machine

/-! ### Where each place stands (R125) -/

/-- A property of the finitely many places of the micro-programs holds of every place. -/
theorem places_forall {P : CmdOp → Nat → Place → Prop}
    (h : ∀ o ∈ [CmdOp.init, .sreset, .gett, .getp], ∀ k : Fin (places o).length, P o k (places o)[k])
    {o : CmdOp} {k : Nat} {q : Place} (hq : (places o)[k]? = some q) : P o k q := by
  obtain ⟨hk, rfl⟩ := List.getElem?_eq_some_iff.mp hq
  exact h o (by cases o <;> decide) ⟨k, hk⟩

section
variable {o : CmdOp} {k : Nat} {q : Place}

theorem place_dec (h : (places o)[k]? = some .dec) : o = .init ∧ k = 42 :=
  places_forall (P := fun o k q => q = .dec → o = .init ∧ k = 42) (by decide) h rfl

theorem place_cmpt (h : (places o)[k]? = some .cmpt) : o = .gett ∧ k = 11 :=
  places_forall (P := fun o k q => q = .cmpt → o = .gett ∧ k = 11) (by decide) h rfl

theorem place_cmpp (h : (places o)[k]? = some .cmpp) : o = .getp ∧ k = 21 :=
  places_forall (P := fun o k q => q = .cmpp → o = .getp ∧ k = 21) (by decide) h rfl

/-- The check is the first micro-operation of the queries, and of nothing else (R120). -/
theorem place_chk : (places o)[k]? = some .chk ↔ (o = .gett ∨ o = .getp) ∧ k = 0 := by
  constructor
  · exact fun h => places_forall (P := fun o k q => q = .chk → (o = .gett ∨ o = .getp) ∧ k = 0)
      (by decide) h rfl
  · rintro ⟨rfl | rfl, rfl⟩ <;> rfl

theorem place_auxon : (places o)[k]? = some .auxon ↔ o = .init ∧ k = 1 := by
  constructor
  · exact fun h => places_forall (P := fun o k q => q = .auxon → o = .init ∧ k = 1)
      (by decide) h rfl
  · rintro ⟨rfl, rfl⟩; rfl

theorem place_rxl_wd {i : Fin 4} (h : (places o)[k]? = some (.rxl (.wd i))) :
    o = .init ∧ k = 14 + 9 * i.val :=
  places_forall (P := fun o k q => ∀ i, q = .rxl (.wd i) → o = .init ∧ k = 14 + 9 * i.val)
    (by decide) h i rfl

theorem place_rxl_d1 (h : (places o)[k]? = some (.rxl .d1)) : o = .getp ∧ k = 10 :=
  places_forall (P := fun o k q => q = .rxl .d1 → o = .getp ∧ k = 10) (by decide) h rfl

theorem place_rxl_d2 (h : (places o)[k]? = some (.rxl .d2)) :
    (o = .gett ∧ k = 10) ∨ (o = .getp ∧ k = 20) :=
  places_forall (P := fun o k q => q = .rxl .d2 → (o = .gett ∧ k = 10) ∨ (o = .getp ∧ k = 20))
    (by decide) h rfl

/-- The places that end a command: an internal operation, or the last byte of a host `SRESET`. -/
theorem place_last (h : (places o)[k]? = some q) :
    k = lastIndex o ↔ q = .dec ∨ q = .cmpt ∨ q = .cmpp ∨ (o = .sreset ∧ k = 3) :=
  places_forall
    (P := fun o k q => k = lastIndex o ↔ q = .dec ∨ q = .cmpt ∨ q = .cmpp ∨ (o = .sreset ∧ k = 3))
    (by decide) h

theorem lastIndex_pos (o : CmdOp) : 0 < lastIndex o := by cases o <;> decide

end

/-! ### What completion adds (R118) -/

section
variable {s : State}

theorem State.bracketWrites_lc (s : State) : s.bracketWrites.lc =
    if cmdOp s.cur = .init ∧ s.upc.toNat = 0 then .uninitialized else s.lc := by
  unfold State.bracketWrites
  split <;> simp_all

theorem State.bracketWrites_err (s : State) : s.bracketWrites.err =
    if cmdOp s.cur = .sreset ∧ s.upc.toNat = 3 then .none else s.err := by
  unfold State.bracketWrites
  split <;> simp_all

theorem State.complete_lc (hb : s.busy = true) : s.complete.lc =
    if cmdOp s.cur = .init ∧ s.upc.toNat = 0 then .uninitialized else s.lc := by
  rw [← State.bracketWrites_lc]
  by_cases hl : s.upc.toNat = lastIndex (cmdOp s.cur)
  · rw [State.complete_last hb hl]
  · rw [State.complete_next hb hl]

theorem State.complete_err (hb : s.busy = true) : s.complete.err =
    if cmdOp s.cur = .sreset ∧ s.upc.toNat = 3 then .none else s.err := by
  rw [← State.bracketWrites_err]
  by_cases hl : s.upc.toNat = lastIndex (cmdOp s.cur)
  · rw [State.complete_last hb hl]
  · rw [State.complete_next hb hl]

/-- Completion ends the command after the last micro-operation and only there. -/
theorem State.complete_busy (hb : s.busy = true) :
    s.complete.busy = false ↔ s.upc.toNat = lastIndex (cmdOp s.cur) := by
  by_cases hl : s.upc.toNat = lastIndex (cmdOp s.cur)
  · simp [State.complete_last hb hl, hl]
  · simp [State.complete_next hb hl, hl, hb]

/-- Before the last index the micro-operation counter does not wrap. -/
theorem State.complete_upc (hb : s.busy = true) (hl : s.upc.toNat < lastIndex (cmdOp s.cur)) :
    s.complete.upc.toNat = s.upc.toNat + 1 := by
  have := lastIndex_le (cmdOp s.cur)
  rw [State.complete_next hb hl.ne]
  rw [BitVec.toNat_add, show (1 : BitVec 6).toNat = 1 from rfl]
  omega

end

/-! ### What a micro-operation writes of its own -/

/-- The writes of `DEC` (R88). -/
def State.decoded (s : State) : State :=
  { s with coeffs := decodeWords s.wd, lc := .ready, err := .none }

/-- The writes of `CMPT` (R113). -/
def State.withTemperature (s : State) : State :=
  let t := temperature s.coeffs (deltaT s.coeffs s.d2)
  { s with temp := t, res := t, rkind := .temperature, err := .none }

/-- The writes of `CMPP(u)` (R114). -/
def State.withPressure (s : State) (u : PressureUnit) : State :=
  let dT := deltaT s.coeffs s.d2
  let t := temperature s.coeffs dT
  let p := firstOrderPressure s.coeffs dT s.d1
  let corrected := p - p2 s.coeffs t p
  { s with
    temp := t, tcorr := t - t2 s.coeffs t, pcomp := p, pcorr := corrected,
    res := match u with | .millibar => corrected | .mmHg => millionthsMmhg p,
    rkind := match u with | .millibar => .pressureMbar | .mmHg => .pressureMmhg,
    err := .none }

theorem exec_dec (unit : Bool) (s : State) : exec (.dec unit) s = .next s.decoded.complete := rfl

theorem exec_cmpt (unit : Bool) (s : State) :
    exec (.cmpt unit) s = .next s.withTemperature.complete := rfl

theorem exec_cmpp (u : PressureUnit) (s : State) :
    exec (.cmpp u) s = .next (s.withPressure u).complete := by
  cases u <;> rfl

/-- `Writes s q u`: the micro-operation at place `q`, if it completes, makes `u` of `s` before the completion
of R118 (R74 to R80, R88, R113, R114, R120). -/
inductive Writes (s : State) : Place → State → Prop
  | request {q : Place} (e : Event) (hq : q ∈ [.cfg, .modeA, .modeB, .tx, .wait]) :
      Writes s q (s.answered.emit e)
  | auxon : Writes s .auxon ({ s with auxen := true }.emit .auxOn)
  | rxh : Writes s .rxh
      ((s.answered.emit (.xfer s.par.dummy s.answer)).receive .high s.answer)
  | rxl (dst : RawReg) : Writes s (.rxl dst)
      ((s.answered.emit (.xfer s.par.dummy s.answer)).receive (.low dst) s.answer)
  | chk (h : s.lc = .ready) : Writes s .chk s
  | dec : Writes s .dec s.decoded
  | cmpt : Writes s .cmpt s.withTemperature
  | cmpp (u : PressureUnit) : Writes s .cmpp (s.withPressure u)

/-- `MicroStep s q t`: the micro-operation at place `q`, as one step, makes `t` of `s`: it waits for its
collaborator (R136), its check fails (R131), or it completes (R118). -/
inductive MicroStep (s : State) (q : Place) : State → Prop
  | waits (h : s.hangs = true) : MicroStep s q s
  | fails (hq : q = .chk) (h : s.lc = .uninitialized) : MicroStep s q s.raiseUninit
  | completes {u : State} (h : Writes s q u) : MicroStep s q u.complete

theorem MicroStep.of_next {s t u : State} {q : Place}
    (h : (.next u : Host.Outcome State Fault Refusal) = .next t) (hu : MicroStep s q u) :
    MicroStep s q t := Host.Outcome.next.inj h ▸ hu

/-- A port request waits or completes, and its completion writes what `m` writes. -/
theorem perform_microStep {m : State → Option State} {s : State} {q : Place}
    (hnone : m s = none → s.hangs = true) (hsome : ∀ u, m s = some u → Writes s q u) :
    MicroStep s q (s.perform m) := by
  rcases s.perform_cases m with ⟨u, hm, hu⟩ | ⟨hm, hu⟩
  · exact hu ▸ .completes (hsome u hm)
  · exact hu.symm ▸ .waits (hnone hm)

theorem perform_request_microStep {s : State} {q : Place} (e : State → Event)
    (hq : q ∈ [Place.cfg, .modeA, .modeB, .tx, .wait]) :
    MicroStep s q (s.perform fun u => request (e u) u) := by
  refine perform_microStep (request_eq_none _).mp fun u hu => ?_
  obtain ⟨-, rfl⟩ := (request_eq_some _).mp hu
  exact .request _ hq

theorem perform_rxOp_microStep {s : State} {q : Place} {target : RxTarget}
    (h : Writes s q ((s.answered.emit (.xfer s.par.dummy s.answer)).receive target s.answer)) :
    MicroStep s q (s.perform (rxOp target)) := by
  refine perform_microStep (rxOp_eq_none _).mp fun u hu => ?_
  obtain ⟨-, rfl⟩ := (rxOp_eq_some _).mp hu
  exact h

theorem State.rxTarget_of_slotAt {s : State} {slot : Slot} (hb : s.busy = true)
    (h : slotAt s.par s.cur s.upc = some slot) : s.rxTarget = slot.rxTarget := by
  simp [State.rxTarget, hb, h]

/-- Every entry of a micro-program, executed at its own place, is a micro-step of that place. -/
theorem exec_microStep {s t : State} {slot : Slot} {q : Place} (hb : s.busy = true)
    (hs : slotAt s.par s.cur s.upc = some slot) (hq : slot.place = some q)
    (hx : exec slot.instr s = .next t) : MicroStep s q t := by
  have htarget := State.rxTarget_of_slotAt hb hs
  cases slot with
  | rxh =>
    obtain rfl := Option.some.inj hq
    exact .of_next hx (perform_rxOp_microStep (htarget ▸ .rxh))
  | rxl dst =>
    obtain rfl := Option.some.inj hq
    exact .of_next hx (perform_rxOp_microStep (htarget ▸ .rxl dst))
  | op i =>
    cases i <;> simp only [Slot.place, Option.some.injEq, reduceCtorEq] at hq <;> subst hq
    case cfg => exact .of_next hx (perform_request_microStep (fun _ => .cfg) (by decide))
    case modeA => exact .of_next hx (perform_request_microStep (fun _ => .mode .a) (by decide))
    case modeB => exact .of_next hx (perform_request_microStep (fun _ => .mode .b) (by decide))
    case tx b =>
      exact .of_next hx (perform_request_microStep (fun u => .xfer b u.answer) (by decide))
    case wait n => exact .of_next hx (perform_request_microStep (fun _ => .wait n) (by decide))
    case auxon => exact .of_next hx (.completes .auxon)
    case chk unit k =>
      simp only [Slot.instr, exec, execChk] at hx
      cases hl : s.lc with
      | uninitialized => exact .of_next (by simpa only [hl] using hx) (.fails rfl hl)
      | ready => exact .of_next (by simpa only [hl] using hx) (.completes (.chk hl))
    case dec unit => exact .of_next ((exec_dec unit s).symm.trans hx) (.completes .dec)
    case cmpt unit => exact .of_next ((exec_cmpt unit s).symm.trans hx) (.completes .cmpt)
    case cmpp u => exact .of_next ((exec_cmpp u s).symm.trans hx) (.completes (.cmpp u))

/-- Without a hardware reset, a step of a running command is the micro-step of the place it stands at. -/
theorem microStep_of_step {s t : State} (h : step s = .next t) (hr : s.inputs.head? ≠ some .reset)
    (hb : s.busy = true) :
    ∃ q, (places (cmdOp s.cur))[s.upc.toNat]? = some q ∧ MicroStep s.consumeInput q t := by
  rw [step_of_busy hr hb] at h
  cases hm : microOp s.par s.cur s.upc with
  | none => simp [hm] at h
  | some i =>
    obtain ⟨slot, hslot, rfl⟩ := microOp_eq_some.mp hm
    obtain ⟨q, hq, hplace⟩ := place_of_slotAt hslot
    exact ⟨q, hplace, exec_microStep (by simpa using hb) (by simpa using hslot) hq (by simpa [hm] using h)⟩

/-- Everything a step without a hardware reset can be: the idle block keeps its registers or accepts a command
word, and a running command takes one micro-step. -/
theorem step_cases_of_no_reset {s t : State} (h : step s = .next t)
    (hr : s.inputs.head? ≠ some .reset) :
    (s.busy = false ∧ t = s.consumeInput) ∨
    (s.busy = false ∧ ∃ w rest, t = { s with inputs := rest, cur := w, upc := 0, busy := true }) ∨
    (s.busy = true ∧ ∃ q, (places (cmdOp s.cur))[s.upc.toNat]? = some q ∧
      MicroStep s.consumeInput q t) := by
  rcases step_cases h with ⟨rest, hreset, -⟩ | ⟨-, hb, -⟩ | ⟨hb, w, rest, -, ht⟩ | ⟨hb, ht⟩
  · exact absurd (by rw [hreset]; rfl) hr
  · exact .inr (.inr ⟨hb, microStep_of_step h hr hb⟩)
  · exact .inr (.inl ⟨hb, w, rest, ht⟩)
  · exact .inl ⟨hb, ht⟩

/-! ### What each micro-operation leaves unchanged -/

section
variable {s u : State} {q : Place}

theorem Writes.control (h : Writes s q u) : u.busy = s.busy ∧ u.cur = s.cur ∧ u.upc = s.upc := by
  cases h <;> simp [State.decoded, State.withTemperature, State.withPressure]

theorem Writes.par (h : Writes s q u) : u.par = s.par := by
  cases h <;> simp [State.decoded, State.withTemperature, State.withPressure]

theorem Writes.lc (h : Writes s q u) (hq : q ≠ .dec) : u.lc = s.lc := by
  cases h <;> simp_all [State.withTemperature, State.withPressure]

theorem Writes.coeffs (h : Writes s q u) (hq : q ≠ .dec) : u.coeffs = s.coeffs := by
  cases h <;> simp_all [State.withTemperature, State.withPressure]

theorem Writes.auxen (h : Writes s q u) (ha : s.auxen = true) : u.auxen = true := by
  cases h <;> simp_all [State.decoded, State.withTemperature, State.withPressure]

theorem Writes.err (h : Writes s q u) : u.err =
    if q = .dec ∨ q = .cmpt ∨ q = .cmpp then .none else s.err := by
  cases h with
  | request e hq => rw [if_neg (by rintro (rfl | rfl | rfl) <;> simp at hq)]; simp
  | _ => simp [State.decoded, State.withTemperature, State.withPressure]

/-- The result registers `TEMP`, `TCORR`, `PCOMP`, `PCORR`, `RES`, `RKIND` (R27, R28). -/
def State.results (s : State) : Int × Int × Int × Int × Int × ResultKind :=
  (s.temp, s.tcorr, s.pcomp, s.pcorr, s.res, s.rkind)

theorem Writes.results (h : Writes s q u) (ht : q ≠ .cmpt) (hp : q ≠ .cmpp) :
    u.results = s.results := by
  cases h <;> simp_all [State.results, State.decoded]

theorem RawWords.get_set_of_ne (ws : RawWords) {i j : Fin 4} (h : i ≠ j) (v : RawWord) :
    (ws.set i v).get j = ws.get j := by
  fin_cases i <;> fin_cases j <;> simp_all [RawWords.get, RawWords.set]

/-- A raw register is written by the second byte of its own read only (R80). -/
theorem Writes.readRaw (h : Writes s q u) {r : RawReg} (hq : q ≠ .rxl r) :
    u.readRaw r = s.readRaw r := by
  cases h with
  | rxl dst =>
    have hne : dst ≠ r := fun e => hq (e ▸ rfl)
    cases dst <;> cases r <;>
      simp_all [State.receive, State.writeRaw, State.readRaw, RawWords.get_set_of_ne]
  | rxh => cases r <;> simp [State.receive, State.readRaw]
  | _ => cases r <;> simp [State.readRaw, State.decoded, State.withTemperature, State.withPressure]

end

/-! ### Data registers -/

/-- `f` reads registers that only a micro-operation's own writes change: not the host's input (log 5), not the
acceptance of a command (R117), not a failed check (R131), not a completion (R118). -/
structure IsDataRegister {α : Type} (f : State → α) : Prop where
  consumeInput : ∀ s, f s.consumeInput = f s
  accept : ∀ (s : State) w rest, f { s with inputs := rest, cur := w, upc := 0, busy := true } = f s
  raiseUninit : ∀ s, f s.raiseUninit = f s
  complete : ∀ s, f s.complete = f s

theorem isDataRegister_coeffs : IsDataRegister fun s => s.coeffs := by constructor <;> simp

theorem isDataRegister_auxen : IsDataRegister fun s => s.auxen := by constructor <;> simp

theorem isDataRegister_results : IsDataRegister State.results := by
  constructor <;> simp [State.results]

theorem isDataRegister_readRaw (r : RawReg) : IsDataRegister fun s => s.readRaw r := by
  cases r <;> constructor <;> simp [State.readRaw]

theorem isDataRegister_par : IsDataRegister fun s => s.par := by constructor <;> simp

/-- Without a hardware reset a data register changes only in a micro-operation that completes and writes it. -/
theorem writes_of_change {α : Type} {f : State → α} (hf : IsDataRegister f) {s t : State}
    (h : step s = .next t) (hr : s.inputs.head? ≠ some .reset) (hne : f t ≠ f s) :
    s.busy = true ∧ ∃ q u, (places (cmdOp s.cur))[s.upc.toNat]? = some q ∧
      Writes s.consumeInput q u ∧ t = u.complete ∧ f u ≠ f s.consumeInput := by
  rcases step_cases_of_no_reset h hr with ⟨-, rfl⟩ | ⟨-, w, rest, rfl⟩ | ⟨hb, q, hq, hm⟩
  · exact absurd (hf.consumeInput s) hne
  · exact absurd (hf.accept s w rest) hne
  · refine ⟨hb, q, ?_⟩
    cases hm with
    | waits => exact absurd (hf.consumeInput s) hne
    | fails => exact absurd ((hf.raiseUninit _).trans (hf.consumeInput s)) hne
    | @completes u hu =>
      rw [hf.complete, ← hf.consumeInput s] at hne
      exact ⟨u, hq, hu, rfl, hne⟩

/-- The completion of a micro-operation ends the command after its last index only. -/
theorem Writes.complete_busy {s u : State} {q : Place} (h : Writes s q u) (hb : s.busy = true) :
    u.complete.busy = false ↔ s.upc.toNat = lastIndex (cmdOp s.cur) := by
  obtain ⟨hbusy, hcur, hupc⟩ := h.control
  rw [State.complete_busy (hbusy.trans hb), hcur, hupc]

theorem Writes.complete_lc {s u : State} {q : Place} (h : Writes s q u) (hb : s.busy = true) :
    u.complete.lc = if cmdOp s.cur = .init ∧ s.upc.toNat = 0 then .uninitialized else u.lc := by
  obtain ⟨hbusy, hcur, hupc⟩ := h.control
  rw [State.complete_lc (hbusy.trans hb), hcur, hupc]

/-- After any other index the next micro-operation of the same command follows. -/
theorem Writes.complete_upc {s u : State} {q : Place} (h : Writes s q u) (hb : s.busy = true)
    (hl : s.upc.toNat < lastIndex (cmdOp s.cur)) : u.complete.upc.toNat = s.upc.toNat + 1 := by
  obtain ⟨hbusy, hcur, hupc⟩ := h.control
  rw [← hcur, ← hupc] at hl
  rw [State.complete_upc (hbusy.trans hb) hl, hupc]

theorem Writes.complete_cur {s u : State} {q : Place} (h : Writes s q u) :
    u.complete.cur = s.cur := by
  obtain ⟨-, hcur, -⟩ := h.control
  rw [State.complete_cur, hcur]

/-- A micro-operation of a command writes `ERR` exactly when it is the last, with `None` (R29). -/
theorem Writes.complete_err {s u : State} {q : Place} (h : Writes s q u) (hb : s.busy = true)
    (hq : (places (cmdOp s.cur))[s.upc.toNat]? = some q) :
    u.complete.err = if s.upc.toNat = lastIndex (cmdOp s.cur) then .none else s.err := by
  obtain ⟨hbusy, hcur, hupc⟩ := h.control
  rw [State.complete_err (hbusy.trans hb), hcur, hupc, h.err]
  have hlast := place_last hq
  grind

/-! ### Progress -/

/-- No instruction faults or is refused. -/
theorem exec_next (i : Instr) (s : State) : ∃ t, exec i s = .next t := by
  cases i with
  | chk unit k =>
    simp only [exec, execChk]
    cases s.lc <;> exact ⟨_, rfl⟩
  | _ => exact ⟨_, rfl⟩

theorem microOp_of_upc_le {p : Params} {cur : BitVec 3} {upc : BitVec 6}
    (h : upc.toNat ≤ lastIndex (cmdOp cur)) : ∃ i, microOp p cur upc = some i := by
  have hs : (slotAt p cur upc).isSome = true := by simpa [slotAt_isSome] using h
  obtain ⟨slot, hslot⟩ := Option.isSome_iff_exists.mp hs
  exact ⟨slot.instr, microOp_eq_some.mpr ⟨slot, hslot, rfl⟩⟩

/-- A block whose control state is inside its micro-program always has a next state (R31). -/
theorem step_next {s : State} (hpos : s.busy = true → s.upc.toNat ≤ lastIndex (cmdOp s.cur)) :
    ∃ t, step s = .next t := by
  by_cases hr : s.inputs.head? = some .reset
  · obtain ⟨rest, hin⟩ := List.head?_eq_some_iff.mp hr
    exact ⟨_, step_of_reset hin⟩
  cases hb : s.busy with
  | true =>
    obtain ⟨i, hi⟩ := microOp_of_upc_le (p := s.par) (hpos hb)
    obtain ⟨t, ht⟩ := exec_next i s.consumeInput
    exact ⟨t, by rw [step_of_busy hr hb, hi]; exact ht⟩
  | false =>
    by_cases hc : ∃ w, s.inputs.head? = some (.command w)
    · obtain ⟨w, hw⟩ := hc
      obtain ⟨rest, hin⟩ := List.head?_eq_some_iff.mp hw
      exact ⟨_, step_of_command hin hb⟩
    · exact ⟨_, step_of_idle hr (fun w hw => hc ⟨w, hw⟩) hb⟩

/-- No step writes the parameters, hardware reset included (R52, R146). -/
theorem step_par {s t : State} (h : step s = .next t) : t.par = s.par := by
  by_cases hr : s.inputs.head? = some .reset
  · obtain ⟨rest, hin⟩ := List.head?_eq_some_iff.mp hr
    rw [step_of_reset hin] at h
    exact Host.Outcome.next.inj h ▸ rfl
  · by_contra hne
    obtain ⟨-, q, u, -, hu, -, hc⟩ := writes_of_change isDataRegister_par h hr hne
    exact hc hu.par

theorem State.hangs_iff (s : State) : s.hangs = true ↔ s.replies.head? = some .never := by
  rcases hr : s.replies with _ | ⟨_ | _, rest⟩ <;> simp [State.hangs, hr]

end Sys2Proof.Machine

namespace Sys2Proof.Proofs

open Sys2Proof.Machine

/-- Settles O10: the step is a micro-step; it completes, or it is a check that failed. -/
theorem microOperationsInOrder : Obligations.MicroOperationsInOrder := by
  intro s hb hin hreply hle
  obtain ⟨t, ht⟩ := step_next fun _ => hle
  refine ⟨t, ht, ?_⟩
  obtain ⟨q, hq, hm⟩ := microStep_of_step ht (by simp [hin]) hb
  have hbc : s.consumeInput.busy = true := by simpa using hb
  cases hm with
  | waits h => exact absurd ((State.hangs_iff s).mp (by simpa [State.hangs] using h)) hreply
  | fails hchk h =>
    obtain ⟨hquery, h0⟩ := place_chk.mp (hchk ▸ hq)
    rw [State.consumeInput_lc] at h
    split_ifs with _ hpasses
    · rfl
    · rfl
    · exact absurd ⟨hquery, h0, h⟩ hpasses
  | @completes u hu =>
    split_ifs with hlast hfail
    · exact (hu.complete_busy hbc).mpr (by simpa using hlast)
    · obtain ⟨hquery, h0, hlc⟩ := hfail
      obtain rfl : q = .chk := Option.some.inj (hq.symm.trans (place_chk.mpr ⟨hquery, h0⟩))
      cases hu with
      | request e hmem => simp at hmem
      | chk hready => simp [hlc] at hready
    · have hlt : s.upc.toNat < lastIndex (cmdOp s.cur) := lt_of_le_of_ne hle hlast
      refine ⟨?_, by simpa using hu.complete_cur, by simpa using hu.complete_upc hbc (by simpa using hlt)⟩
      rw [← Bool.not_eq_false, hu.complete_busy hbc]
      simpa using hlast

/-- Settles O51: the parameters are no register that anything writes, and so the step with them as its
argument loses nothing. -/
theorem noStepChangesTheRom : Obligations.NoStepChangesTheRom := by
  refine ⟨fun s t h => ⟨step_par h, by rw [step_par h]⟩, fun p b t => ?_⟩
  simp only [stepWith_next]
  constructor
  · intro h
    obtain rfl : t.par = p := step_par h
    exact ⟨t.toBlock, ⟨t, h, rfl⟩, rfl⟩
  · rintro ⟨_, ⟨t', h, rfl⟩, rfl⟩
    obtain rfl : t'.par = p := step_par h
    exact h

/-- Settles O52: `LC` changes at the bracket of `INIT`'s first index and in `DEC`, coefficients in `DEC`. -/
theorem onlyInitChangesTheLifecycle : Obligations.OnlyInitChangesTheLifecycle := by
  intro s t h hr
  constructor
  · intro hne
    rcases step_cases_of_no_reset h hr with ⟨-, rfl⟩ | ⟨-, w, rest, rfl⟩ | ⟨hb, q, hq, hm⟩
    · exact absurd s.consumeInput_lc hne
    · exact absurd rfl hne
    · refine ⟨hb, ?_⟩
      cases hm with
      | waits => exact absurd s.consumeInput_lc hne
      | fails => exact absurd s.consumeInput_lc hne
      | @completes u hu =>
        by_cases hd : q = .dec
        · obtain ⟨hinit, h42⟩ := place_dec (hd ▸ hq)
          exact ⟨hinit, .inr h42⟩
        · rw [hu.complete_lc (by simpa using hb), hu.lc hd] at hne
          simp only [State.consumeInput_cur, State.consumeInput_upc, State.consumeInput_lc,
            ne_eq, ite_eq_right_iff, Classical.not_imp] at hne
          obtain ⟨⟨hinit, h0⟩, -⟩ := hne
          exact ⟨hinit, .inl h0⟩
  · intro hne
    obtain ⟨hb, q, u, hq, hu, -, hc⟩ := writes_of_change isDataRegister_coeffs h hr hne
    obtain rfl : q = .dec := by_contra fun hd => hc (hu.coeffs hd)
    exact ⟨hb, place_dec hq⟩

/-- Settles O53: no micro-operation clears `AUXEN`, and nothing but one writes it. -/
theorem onlyHardwareResetClearsAuxen : Obligations.OnlyHardwareResetClearsAuxen := by
  intro s t h hs ht
  by_contra hr
  obtain ⟨-, q, u, -, hu, rfl, -⟩ := writes_of_change isDataRegister_auxen h hr (by simp [hs, ht])
  have hkept := hu.auxen (by simpa using hs)
  simp [hkept] at ht

/-- Settles O54: the results are written at `CMPT` and `CMPP` only, which end their query. -/
theorem resultsChangeOnlyInTheLastStep : Obligations.ResultsChangeOnlyInTheLastStep := by
  intro s t h hr hne
  obtain ⟨hb, q, u, hq, hu, rfl, hc⟩ := writes_of_change isDataRegister_results h hr hne
  have hwriter : q = .cmpt ∨ q = .cmpp := by
    by_contra hn
    exact hc (hu.results (fun e => hn (.inl e)) fun e => hn (.inr e))
  have hlast : s.upc.toNat = lastIndex (cmdOp s.cur) := (place_last hq).mpr (by tauto)
  have hquery : isQuery s.cur := by
    rcases hwriter with rfl | rfl
    · exact .inl (place_cmpt hq).1
    · exact .inr (place_cmpp hq).1
  exact ⟨hb, hquery, hlast, (hu.complete_busy (by simpa using hb)).mpr (by simpa using hlast)⟩

/-- Settles O56: each raw register is written by the second byte of its own read, which stands at its own places
only. -/
theorem rawRegistersAreWrittenByTheirReads : Obligations.RawRegistersAreWrittenByTheirReads := by
  intro s t h hr
  have hread (r : RawReg) (hne : t.readRaw r ≠ s.readRaw r) :
      s.busy = true ∧ (places (cmdOp s.cur))[s.upc.toNat]? = some (.rxl r) := by
    obtain ⟨hb, q, u, hq, hu, -, hc⟩ := writes_of_change (isDataRegister_readRaw r) h hr hne
    obtain rfl : q = .rxl r := by_contra fun hd => hc (hu.readRaw hd)
    exact ⟨hb, hq⟩
  refine ⟨fun i hne => ?_, fun hne => ?_, fun hne => ?_⟩
  · obtain ⟨hb, hq⟩ := hread (.wd i) hne
    exact ⟨hb, place_rxl_wd hq⟩
  · obtain ⟨hb, hq⟩ := hread .d1 hne
    exact ⟨hb, place_rxl_d1 hq⟩
  · obtain ⟨hb, hq⟩ := hread .d2 hne
    exact ⟨hb, place_rxl_d2 hq⟩

/-- Settles O57: a failed check writes `Uninit`, the completion of the last micro-operation `None`, and nothing
else writes `ERR`. -/
theorem errIsWrittenAtCompletion : Obligations.ErrIsWrittenAtCompletion := by
  intro s t h hr
  rcases step_cases_of_no_reset h hr with ⟨hb, rfl⟩ | ⟨hb, w, rest, rfl⟩ | ⟨hb, q, hq, hm⟩
  · exact ⟨fun hne => absurd s.consumeInput_err hne, by simp [hb]⟩
  · exact ⟨fun hne => absurd rfl hne, by simp⟩
  cases hm with
  | waits => exact ⟨fun hne => absurd s.consumeInput_err hne, by simp [hb]⟩
  | fails hchk hlc =>
    obtain ⟨hquery, h0⟩ := place_chk.mp (hchk ▸ hq)
    rw [State.consumeInput_lc] at hlc
    refine ⟨fun _ => ⟨hb, rfl⟩, fun _ _ => ?_⟩
    rw [if_pos ⟨hquery, h0, hlc⟩, State.raiseUninit_err]
  | @completes u hu =>
    have hbc : s.consumeInput.busy = true := by simpa using hb
    have herr := hu.complete_err hbc (by simpa using hq)
    have hbusy := hu.complete_busy hbc
    simp only [State.consumeInput_cur, State.consumeInput_upc, State.consumeInput_err] at herr hbusy
    have hpos := lastIndex_pos (cmdOp s.cur)
    by_cases hlast : s.upc.toNat = lastIndex (cmdOp s.cur)
    · rw [if_pos hlast] at herr
      refine ⟨fun _ => ⟨hb, hbusy.mpr hlast⟩, fun _ _ => ?_⟩
      rw [if_neg (by omega), herr]
    · rw [if_neg hlast] at herr
      exact ⟨fun hne => absurd herr hne, fun _ hdone => absurd (hbusy.mp hdone) hlast⟩

end Sys2Proof.Proofs

/-! The invariant of every reachable state: it holds at reset, and each kind of step keeps it. -/

namespace Sys2Proof.Machine

/-! ### Registers of `W` bits (R14, R98) -/

theorem fitsIn_mono {v w : Nat} {x : Int} (h : v ≤ w) (hx : fitsIn v x) : fitsIn w x := by
  have hpow : (2 : Int) ^ (v - 1) ≤ 2 ^ (w - 1) := pow_le_pow_right₀ (by decide) (by omega)
  obtain ⟨hlo, hhi⟩ := hx
  exact ⟨by linarith, by linarith⟩

/-- What 36 bits hold fits in every register of the block (R14). -/
theorem fitsIn_width {p : Params} {x : Int} (h : fitsIn 36 x) : fitsIn p.width.bits x :=
  fitsIn_mono p.width.enough h

theorem fitsIn_unwrittenInt (p : Params) (epoch : Nat) (r : UnwrittenReg) :
    fitsIn p.width.bits (unwrittenInt p epoch r) :=
  ⟨BitVec.le_toInt _, BitVec.toInt_lt⟩

/-- The six coefficients fit in registers of 36 bits (R98). -/
theorem fitsIn_of_inRange {c : Coeffs} (hc : c.inRange) : fitsIn 36 c.c1 ∧ fitsIn 36 c.c2 ∧
    fitsIn 36 c.c3 ∧ fitsIn 36 c.c4 ∧ fitsIn 36 c.c5 ∧ fitsIn 36 c.c6 := by
  unfold Coeffs.inRange at hc
  simp only [fitsIn]
  omega

/-- Decoding the words read leaves every register in its width. -/
theorem registersFit_decoded {s : State} (h : registersFit s) : registersFit s.decoded := by
  obtain ⟨-, -, -, -, -, -, htemp, htcorr, hpcomp, hpcorr, hres⟩ := h
  obtain ⟨h1, h2, h3, h4, h5, h6⟩ := fitsIn_of_inRange (decodeWords_inRange s.wd)
  exact ⟨fitsIn_width h1, fitsIn_width h2, fitsIn_width h3, fitsIn_width h4, fitsIn_width h5,
    fitsIn_width h6, htemp, htcorr, hpcomp, hpcorr, hres⟩

theorem registersFit_withTemperature {s : State} (h : registersFit s) (hc : s.coeffs.inRange) :
    registersFit s.withTemperature := by
  obtain ⟨h1, h2, h3, h4, h5, h6, -, htcorr, hpcomp, hpcorr, -⟩ := h
  obtain ⟨hlo, hhi⟩ := temperature_bounds hc (deltaT_bounds hc s.d2)
  have ht : fitsIn s.par.width.bits (temperature s.coeffs (deltaT s.coeffs s.d2)) :=
    fitsIn_width ⟨by omega, by omega⟩
  exact ⟨h1, h2, h3, h4, h5, h6, ht, htcorr, hpcomp, hpcorr, ht⟩

/-- Completion writes no register of `W` bits. -/
theorem registersFit_complete {s : State} : registersFit s.complete ↔ registersFit s := by
  simp [registersFit]

theorem registersFit_withPressure {s : State} (h : registersFit s) (hc : s.coeffs.inRange)
    (u : PressureUnit) : registersFit (s.withPressure u) := by
  obtain ⟨h1, h2, h3, h4, h5, h6, -, -, -, -, -⟩ := h
  obtain ⟨t, hx, htemp, htcorr, hpcomp, hpcorr, hres⟩ :=
    Proofs.resultsStayInTheirIntervals s u hc
  obtain rfl := Host.Outcome.next.inj ((exec_cmpp u s).symm.trans hx)
  simp only [State.complete_temp, State.complete_tcorr, State.complete_pcomp, State.complete_pcorr,
    State.complete_res] at htemp htcorr hpcomp hpcorr hres
  exact ⟨h1, h2, h3, h4, h5, h6, fitsIn_width ⟨by omega, by omega⟩, fitsIn_width ⟨by omega, by omega⟩,
    fitsIn_width ⟨by omega, by omega⟩, fitsIn_width ⟨by omega, by omega⟩, fitsIn_width hres⟩

/-! ### What the invariant asks of single micro-operations -/

section
variable {s u : State} {q : Place}

theorem Writes.wd (h : Writes s q u) (hq : ∀ i, q ≠ .rxl (.wd i)) : u.wd = s.wd := by
  cases h with
  | rxl dst => cases dst <;> simp_all [State.receive, State.writeRaw]
  | _ => simp [State.receive, State.decoded, State.withTemperature, State.withPressure]

/-- A check completes in `Ready` only (R120). -/
theorem Writes.ready_of_chk (h : Writes s .chk u) : s.lc = .ready := by
  cases h with
  | request e hq => simp at hq
  | chk hr => exact hr

theorem Writes.auxen_of_auxon (h : Writes s .auxon u) : u.auxen = true := by
  cases h with
  | request e hq => simp at hq
  | auxon => rfl

theorem Writes.coeffs_of_dec (h : Writes s .dec u) : u.coeffs = decodeWords u.wd := by
  cases h with
  | request e hq => simp at hq
  | dec => rfl

/-- In `Ready` after a micro-operation: either it was `DEC`, or the block was in `Ready` before. -/
theorem Writes.ready_cases (hw : Writes s q u) (hb : s.busy = true)
    (hr : u.complete.lc = .ready) : q = .dec ∨ (q ≠ .dec ∧ s.lc = .ready) := by
  by_cases hd : q = .dec
  · exact .inl hd
  · rw [hw.complete_lc hb, hw.lc hd] at hr
    split_ifs at hr
    exact .inr ⟨hd, hr⟩

end

end Sys2Proof.Machine

namespace Sys2Proof

open Sys2Proof.Machine

/-! ### Reset, the host's input, acceptance, a failed check -/

/-- Right after hardware reset, whatever the outside will do (R36). -/
theorem inv_initial (p : Params) (epoch drawn : Nat) (inputs : List HostInput)
    (replies : List Reply) :
    Inv { State.initial p epoch with inputs := inputs, replies := replies, drawn := drawn } where
  position := by simp [State.initial]
  initUninitialized := by simp [State.initial]
  queryReady := by simp [State.initial]
  coefficients := by simp [State.initial]
  initAux := by simp [State.initial]
  readyAux := by simp [State.initial]
  fits := by simp [registersFit, State.initial, fitsIn_unwrittenInt]

/-- An idle block holds no trace obligation (R49). -/
theorem traceSync_of_idle {s : State} (h : s.busy = false) : TraceSync s := by
  simp [TraceSync, h]

section
variable {s u t : State} {q : Place}

theorem Inv.consumeInput (hi : Inv s) : Inv s.consumeInput where
  position := by simpa using hi.position
  initUninitialized := by simpa using hi.initUninitialized
  queryReady := by simpa using hi.queryReady
  coefficients := by simpa using hi.coefficients
  initAux := by simpa using hi.initAux
  readyAux := by simpa using hi.readyAux
  fits := by simpa [registersFit] using hi.fits

theorem Inv.accept (hi : Inv s) (w : BitVec 3) (rest : List HostInput) :
    Inv { s with inputs := rest, cur := w, upc := 0, busy := true } where
  position := by simp
  initUninitialized := by simp
  queryReady := by simp
  coefficients := hi.coefficients
  initAux := by simp
  readyAux := hi.readyAux
  fits := hi.fits

theorem Inv.raiseUninit (hi : Inv s) : Inv s.raiseUninit where
  position := by simp
  initUninitialized := by simp
  queryReady := by simp
  coefficients := hi.coefficients
  initAux := by simp
  readyAux := hi.readyAux
  fits := hi.fits

/-! ### A micro-operation that completes -/

/-- A query past its check computes from coefficients in their ranges, since `DEC` wrote them (R35). -/
theorem Inv.coeffs_inRange (hi : Inv s) (hb : s.busy = true) (hquery : isQuery s.cur)
    (hpos : 0 < s.upc.toNat) : s.coeffs.inRange := by
  rw [hi.coefficients (hi.queryReady hb hquery hpos)]
  exact decodeWords_inRange s.wd

section
variable (hi : Inv s) (hb : s.busy = true) (hq : (places (cmdOp s.cur))[s.upc.toNat]? = some q)
  (hw : Writes s q u)
include hi hb hw

/-- A command that still runs after a micro-operation stands at its next one. -/
theorem Machine.Writes.advances (hbusy : u.complete.busy = true) :
    s.upc.toNat < lastIndex (cmdOp s.cur) ∧ u.complete.upc.toNat = s.upc.toNat + 1 := by
  have hne : s.upc.toNat ≠ lastIndex (cmdOp s.cur) := fun hl => by
    simp [(hw.complete_busy hb).mpr hl] at hbusy
  have hlt := lt_of_le_of_ne (hi.position hb) hne
  exact ⟨hlt, hw.complete_upc hb hlt⟩

include hq

/-- A command that still runs has not executed `DEC`, so `LC` is as before but for the bracket of `INIT`. -/
theorem Machine.Writes.lc_of_running (hbusy : u.complete.busy = true) : u.complete.lc =
    if cmdOp s.cur = .init ∧ s.upc.toNat = 0 then .uninitialized else s.lc := by
  obtain ⟨hlt, -⟩ := hw.advances hi hb hbusy
  have hd : q ≠ .dec := fun e => by
    have := (place_last hq).mpr (.inl e)
    omega
  rw [hw.complete_lc hb, hw.lc hd]

/-- The words `DEC` read stay as they are while the block is in `Ready` (R25, R126). -/
theorem Machine.Writes.wd_of_ready (hr : s.lc = .ready) : u.wd = s.wd := by
  refine hw.wd fun i e => ?_
  obtain ⟨hinit, hk⟩ := place_rxl_wd (e ▸ hq)
  have := hi.initUninitialized hb hinit (by omega)
  simp [hr] at this

theorem Machine.Writes.fits : registersFit u := by
  cases hw with
  | dec => exact registersFit_decoded hi.fits
  | cmpt =>
    obtain ⟨ho, hk⟩ := place_cmpt hq
    exact registersFit_withTemperature hi.fits (hi.coeffs_inRange hb (.inl ho) (by omega))
  | cmpp unit =>
    obtain ⟨ho, hk⟩ := place_cmpp hq
    exact registersFit_withPressure hi.fits (hi.coeffs_inRange hb (.inr ho) (by omega)) unit
  | _ => simpa [registersFit] using hi.fits

theorem Inv.complete : Inv u.complete where
  position hbusy := by
    obtain ⟨hlt, hupc⟩ := hw.advances hi hb hbusy
    rw [hw.complete_cur]
    omega
  initUninitialized hbusy hinit _ := by
    rw [hw.complete_cur] at hinit
    rw [hw.lc_of_running hi hb hq hbusy]
    split_ifs with h0
    · rfl
    · exact hi.initUninitialized hb hinit (Nat.pos_of_ne_zero fun h => h0 ⟨hinit, h⟩)
  queryReady hbusy hquery _ := by
    rw [hw.complete_cur] at hquery
    have hinit : cmdOp s.cur ≠ .init := by rcases hquery with h | h <;> simp [h]
    rw [hw.lc_of_running hi hb hq hbusy, if_neg fun h => hinit h.1]
    rcases Nat.eq_zero_or_pos s.upc.toNat with h0 | hpos
    · obtain rfl : q = .chk := Option.some.inj (hq.symm.trans (place_chk.mpr ⟨hquery, h0⟩))
      exact hw.ready_of_chk
    · exact hi.queryReady hb hquery hpos
  coefficients hr := by
    rw [State.complete_coeffs, State.complete_wd]
    rcases hw.ready_cases hb hr with rfl | ⟨hd, hready⟩
    · exact hw.coeffs_of_dec
    · rw [hw.coeffs hd, hw.wd_of_ready hi hb hq hready, hi.coefficients hready]
  initAux hbusy hinit hupc := by
    rw [hw.complete_cur] at hinit
    obtain ⟨-, hnext⟩ := hw.advances hi hb hbusy
    rw [State.complete_auxen]
    by_cases h1 : s.upc.toNat = 1
    · obtain rfl : q = .auxon := Option.some.inj (hq.symm.trans (place_auxon.mpr ⟨hinit, h1⟩))
      exact hw.auxen_of_auxon
    · exact hw.auxen (hi.initAux hb hinit (by omega))
  readyAux hr := by
    rw [State.complete_auxen]
    rcases hw.ready_cases hb hr with rfl | ⟨-, hready⟩
    · obtain ⟨hinit, hk⟩ := place_dec hq
      exact hw.auxen (hi.initAux hb hinit (by omega))
    · exact hw.auxen (hi.readyAux hready)
  fits := registersFit_complete.mpr (hw.fits hi hb hq)

end

/-! ### Every step -/

theorem Inv.of_microStep (hi : Inv s) (hb : s.busy = true)
    (hq : (places (cmdOp s.cur))[s.upc.toNat]? = some q) (h : MicroStep s q t) : Inv t := by
  cases h with
  | waits => exact hi
  | fails => exact hi.raiseUninit
  | completes hw => exact hi.complete hb hq hw

theorem inv_hardwareReset (s : State) : Inv s.hardwareReset :=
  inv_initial s.par (s.epoch + 1) s.drawn s.inputs s.repliesAfterReset

theorem Inv.of_step (hi : Inv s) (h : step s = .next t) : Inv t := by
  by_cases hr : s.inputs.head? = some .reset
  · obtain ⟨rest, hin⟩ := List.head?_eq_some_iff.mp hr
    rw [step_of_reset hin] at h
    exact Host.Outcome.next.inj h ▸ inv_hardwareReset _
  · rcases step_cases_of_no_reset h hr with ⟨-, rfl⟩ | ⟨-, w, rest, rfl⟩ | ⟨hb, q, hq, hm⟩
    · exact hi.consumeInput
    · exact hi.accept w rest
    · exact hi.consumeInput.of_microStep (by simpa using hb) (by simpa using hq) hm

end

end Sys2Proof

namespace Sys2Proof.Proofs

open Sys2Proof.Machine

/-- Settles O46: a control state inside its micro-program has a next state, and each kind of step keeps the
invariant. -/
theorem stepKeepsInvariant : Obligations.StepKeepsInvariant := by
  intro s hi
  obtain ⟨t, ht⟩ := step_next hi.position
  exact ⟨t, ht, hi.of_step ht⟩

/-- Settles O41: each of the values is the one `State.initial` writes. -/
theorem stateAfterReset : Obligations.StateAfterReset := ⟨rfl, rfl, rfl, rfl, rfl, rfl⟩

/-- Settles O45: the block is idle, in `Uninitialized`, and a free value fits in its register. -/
theorem invariantAtReset : Obligations.InvariantAtReset := fun p epoch drawn inputs replies =>
  ⟨inv_initial p epoch drawn inputs replies, traceSync_of_idle rfl⟩

end Sys2Proof.Proofs

/-! A 16-bit read (R80): the first exchange latches its byte in `HI`, the second puts both into its destination. -/

namespace Sys2Proof.Machine

/-! ### The two bytes of a word (R42, R65) -/

@[simp] theorem hiByte_be16 (hi lo : Byte) : hiByte (be16 hi lo) = hi := append_high hi lo

@[simp] theorem loByte_be16 (hi lo : Byte) : loByte (be16 hi lo) = lo := append_low hi lo

theorem be16_toNat (hi lo : Byte) : (be16 hi lo).toNat = hi.toNat * 256 + lo.toNat := by
  rw [be16, BitVec.toNat_append, ← Nat.shiftLeft_add_eq_or_of_lt lo.isLt, Nat.shiftLeft_eq]

/-! ### The destination (R25, R26) -/

@[simp] theorem RawWords.get_set_same (ws : RawWords) (i : Fin 4) (v : RawWord) :
    (ws.set i v).get i = v := by
  fin_cases i <;> rfl

@[simp] theorem State.readRaw_writeRaw_same (s : State) (dst : RawReg) (v : RawWord) :
    (s.writeRaw dst v).readRaw dst = v := by
  cases dst with
  | wd i => exact s.wd.get_set_same i v
  | d1 => rfl
  | d2 => rfl

/-! ### Where a read stands (R125) -/

section
variable {p : Params} {cur : BitVec 3} {upc : BitVec 6} {o : CmdOp} {k : Nat} {q : Place}

/-- Only `CFG`, the bytes sent and the operations that end a command stand at a last or at the bracketed index
of `INIT`. -/
theorem place_inner (h : (places o)[k]? = some q) (hq : q ∉ [.cfg, .tx, .dec, .cmpt, .cmpp]) :
    k ≠ lastIndex o ∧ ¬(o = .init ∧ k = 0) :=
  places_forall
    (P := fun o k q => q ∉ [.cfg, .tx, .dec, .cmpt, .cmpp] → k ≠ lastIndex o ∧ ¬(o = .init ∧ k = 0))
    (by decide) h hq

/-- The place of a second exchange names the entry itself, its destination included. -/
theorem slotAt_of_place_rxl {dst : RawReg}
    (h : (places (cmdOp cur))[upc.toNat]? = some (.rxl dst)) : slotAt p cur upc = some (.rxl dst) := by
  have hm := congrArg (fun l => l[upc.toNat]?) (program_places p cur)
  simp only [List.getElem?_map, h] at hm
  obtain ⟨slot, hslot, hplace⟩ := Option.map_eq_some_iff.mp hm
  cases slot with
  | op i => cases i <;> simp [Slot.place] at hplace
  | rxh => simp [Slot.place] at hplace
  | rxl dst' => simpa [Slot.place, slotAt, hslot] using hplace

/-- A micro-program is shorter than `UPC` counts, so the index after a place does not wrap. -/
theorem upc_succ_toNat (h : (places o)[upc.toNat + 1]? = some q) :
    (upc + 1).toNat = upc.toNat + 1 := by
  have hlt := index_lt_of_place h
  have hlen : (places o).length ≤ 43 := by cases o <;> decide
  rw [BitVec.toNat_add, show (1 : BitVec 6).toNat = 1 from rfl]
  omega

end

/-! ### The two exchanges -/

section
variable {s : State} {b hi lo : Byte} {rest : List Reply} {dst : RawReg}

/-- Away from the bracketed indices completion only counts on (R118). -/
theorem State.complete_inner (hb : s.busy = true) (hl : s.upc.toNat ≠ lastIndex (cmdOp s.cur))
    (hbracket : ¬(cmdOp s.cur = .init ∧ s.upc.toNat = 0)) :
    s.complete = { s with upc := s.upc + 1 } := by
  have hs : ¬(cmdOp s.cur = .sreset ∧ s.upc.toNat = 3) := fun ⟨ho, hk⟩ => hl (by rw [ho, hk]; rfl)
  rw [State.complete_next hb hl, State.bracketWrites_other hbracket hs]

/-- An exchange whose answer is the next one of the list. -/
theorem rxOp_completes (target : RxTarget) (h : s.replies = .completes b :: rest) :
    rxOp target s = some (({ s with replies := rest }.emit (.xfer s.par.dummy b)).receive target b) := by
  rw [rxOp_eq_some, State.hangs_completes h, State.answered_completes h, State.answer_completes h]
  exact ⟨rfl, rfl⟩

/-- `RXH` at its place, answered with `b` (R80). -/
theorem performAll_rxh (ms : List (State → Option State)) (hb : s.busy = true)
    (hr : s.replies = .completes b :: rest)
    (hq : (places (cmdOp s.cur))[s.upc.toNat]? = some .rxh) :
    s.performAll (rxOp .high :: ms) =
      { s with hi := b, replies := rest, upc := s.upc + 1,
               trace := s.trace ++ [Event.xfer s.par.dummy b] }.performAll ms := by
  obtain ⟨hl, hbracket⟩ := place_inner hq (by decide)
  rw [State.performAll_some ms (rxOp_completes .high hr),
    State.complete_inner (by simpa using hb) (by simpa using hl) (by simpa using hbracket)]
  rfl

/-- `RXL(dst)` at its place, answered with `b` (R80). -/
theorem performAll_rxl (ms : List (State → Option State)) (hb : s.busy = true)
    (hr : s.replies = .completes b :: rest)
    (hq : (places (cmdOp s.cur))[s.upc.toNat]? = some (.rxl dst)) :
    s.performAll (rxOp (.low dst) :: ms) =
      { s.writeRaw dst (be16 s.hi b) with
        replies := rest, upc := s.upc + 1,
        trace := s.trace ++ [Event.xfer s.par.dummy b] }.performAll ms := by
  obtain ⟨hl, hbracket⟩ := place_inner hq (by simp)
  rw [State.performAll_some ms (rxOp_completes (.low dst) hr),
    State.complete_inner (by simpa using hb) (by simpa using hl) (by simpa using hbracket)]
  cases dst <;> rfl

/-- A 16-bit read at its place, answered with two bytes (R80). -/
theorem performAll_read16Ops (hb : s.busy = true)
    (hr : s.replies = .completes hi :: .completes lo :: rest)
    (hfirst : (places (cmdOp s.cur))[s.upc.toNat]? = some .rxh)
    (hsecond : (places (cmdOp s.cur))[s.upc.toNat + 1]? = some (.rxl dst)) :
    s.performAll (read16Ops (.low dst)) =
      { s.writeRaw dst (be16 hi lo) with
        hi := hi, replies := rest, upc := s.upc + 2,
        trace := s.trace ++ [.xfer s.par.dummy hi, .xfer s.par.dummy lo] } := by
  have hq : (places (cmdOp s.cur))[(s.upc + 1).toNat]? = some (.rxl dst) := by
    rwa [upc_succ_toNat hsecond]
  refine (performAll_rxh _ hb hr hfirst).trans
    ((performAll_rxl [] (by exact hb) (by rfl) (by exact hq)).trans ?_)
  rw [State.performAll_nil]
  cases dst <;> simp [State.writeRaw, BitVec.add_assoc]

/-- The read that starts at a first exchange ends at the second, which names the destination (R82, R83). -/
theorem State.nextRxTarget_of_place (hb : s.busy = true)
    (h : (places (cmdOp s.cur))[s.upc.toNat + 1]? = some (.rxl dst)) :
    s.nextRxTarget = .low dst :=
  State.rxTarget_of_slotAt (s := { s with upc := s.upc + 1 }) hb
    (slotAt_of_place_rxl (by rwa [upc_succ_toNat h]))

theorem exec_rd16 (hi lo : Byte) (s : State) : exec (.rd16 hi lo) s =
    .next ((s.sensorAnswers (be16 hi lo)).performAll (read16Ops s.nextRxTarget)) := rfl

/-- `RD16` at its place brings its two answers and uses them up (R65, log 18). -/
theorem exec_rd16_at_place (hb : s.busy = true)
    (hfirst : (places (cmdOp s.cur))[s.upc.toNat]? = some .rxh)
    (hsecond : (places (cmdOp s.cur))[s.upc.toNat + 1]? = some (.rxl dst)) :
    ∃ t, exec (.rd16 hi lo) s = .next t ∧
      t = { s.writeRaw dst (be16 hi lo) with
            hi := hi, upc := s.upc + 2,
            trace := s.trace ++ [.xfer s.par.dummy hi, .xfer s.par.dummy lo] } ∧
      t.readRaw dst = be16 hi lo := by
  have hr : (s.sensorAnswers (be16 hi lo)).replies =
      .completes hi :: .completes lo :: s.replies := by simp
  have hread := performAll_read16Ops (s := s.sensorAnswers (be16 hi lo)) hb hr hfirst hsecond
  have hvalue := s.readRaw_writeRaw_same dst (be16 hi lo)
  rw [exec_rd16, State.nextRxTarget_of_place hb hsecond, hread]
  cases dst <;> exact ⟨_, rfl, rfl, hvalue⟩

end

end Sys2Proof.Machine

namespace Sys2Proof.Proofs

open Sys2Proof.Machine

/-- Settles O32: each of the seven places is a first exchange, and the entry after it names the destination. -/
theorem sixteenBitValuesAreBigEndian : Obligations.SixteenBitValuesAreBigEndian := by
  intro s hi lo dst hb hplace
  have hread : ∀ x ∈ [(CmdOp.init, 13, RawReg.wd 0), (.init, 22, .wd 1), (.init, 31, .wd 2),
      (.init, 40, .wd 3), (.gett, 9, .d2), (.getp, 9, .d1), (.getp, 19, .d2)],
      (places x.1)[x.2.1]? = some .rxh ∧ (places x.1)[x.2.1 + 1]? = some (.rxl x.2.2) := by decide
  obtain ⟨hfirst, hsecond⟩ := hread _ hplace
  obtain ⟨t, hexec, ht, hvalue⟩ := exec_rd16_at_place (hi := hi) (lo := lo) hb hfirst hsecond
  exact ⟨t, hexec, by rw [hvalue, be16_toNat], by rw [hvalue, ht]⟩

end Sys2Proof.Proofs

/-! The trace of a running command (R49): each micro-operation that completes sends the event of its entry. -/

namespace Sys2Proof.Machine

/-! ### What an entry sends -/

/-- `t` is `s` itself, or the trace has grown by `sent`, the bytes received left out. -/
def SendsOrWaits (sent : List Event) (s t : State) : Prop :=
  t = s ∨ t.trace.map Event.sent = s.trace.map Event.sent ++ sent

section
variable {s t u : State} {sent : List Event}

theorem SendsOrWaits.of_next (h : (.next u : Host.Outcome State Fault Refusal) = .next t)
    (hu : SendsOrWaits sent s u) : SendsOrWaits sent s t := Host.Outcome.next.inj h ▸ hu

theorem sendsOrWaits_nil (h : t.trace = s.trace) : SendsOrWaits [] s t :=
  .inr (by rw [h, List.append_nil])

/-- A micro-operation that completes only with an event more sends that event. -/
theorem perform_sendsOrWaits {m : State → Option State} {e : Event}
    (h : ∀ u, m s = some u → u.trace = s.trace ++ [e]) :
    SendsOrWaits [e.sent] s (s.perform m) := by
  rcases s.perform_cases m with ⟨u, hm, hu⟩ | ⟨-, hu⟩
  · exact .inr (by rw [hu, State.complete_trace, h u hm, List.map_append]; rfl)
  · exact .inl hu

theorem perform_request_sendsOrWaits (e : State → Event) (s : State) :
    SendsOrWaits [(e s).sent] s (s.perform fun u => request (e u) u) :=
  perform_sendsOrWaits fun _ h => request_trace h

/-- Every entry of a micro-program sends its event of R125 and no other, or waits (R136). -/
theorem exec_sendsOrWaits {slot : Slot} {q : Place} (hq : slot.place = some q)
    (hx : exec slot.instr s = .next t) : SendsOrWaits (slot.event s.par).toList s t := by
  cases slot with
  | rxh => exact .of_next hx (perform_sendsOrWaits fun _ h => rxOp_trace h)
  | rxl dst => exact .of_next hx (perform_sendsOrWaits fun _ h => rxOp_trace h)
  | op i =>
    cases i <;> simp only [Slot.place, reduceCtorEq] at hq
    case cfg => exact .of_next hx (perform_request_sendsOrWaits (fun _ => .cfg) s)
    case modeA => exact .of_next hx (perform_request_sendsOrWaits (fun _ => .mode .a) s)
    case modeB => exact .of_next hx (perform_request_sendsOrWaits (fun _ => .mode .b) s)
    case tx b => exact .of_next hx (perform_request_sendsOrWaits (fun u => .xfer b u.answer) s)
    case wait n => exact .of_next hx (perform_request_sendsOrWaits (fun _ => .wait n) s)
    case auxon => exact .of_next hx (perform_sendsOrWaits fun _ h => auxonOp_trace h)
    case chk unit k => exact sendsOrWaits_nil (execChk_trace (unit := unit) (k := k) hx)
    case dec unit => exact .of_next hx (sendsOrWaits_nil (State.complete_trace _))
    case cmpt unit => exact .of_next hx (sendsOrWaits_nil (State.complete_trace _))
    case cmpp u => exact .of_next hx (sendsOrWaits_nil (State.complete_trace _))

/-- The events of one micro-operation more. -/
theorem commandEvents_succ {p : Params} {cur : BitVec 3} {upc : BitVec 6} {slot : Slot}
    (h : slotAt p cur upc = some slot) :
    commandEvents p cur (upc.toNat + 1) =
      commandEvents p cur upc.toNat ++ (slot.event p).toList := by
  rw [slotAt] at h
  rw [commandEvents, commandEvents, List.take_add_one, h, List.filterMap_append]
  cases he : slot.event p <;> simp [he]

/-- A command that still runs after a micro-operation stands at its next one, in every state that has an entry
at its control state, reachable or not. -/
theorem Writes.complete_upc_of_running {slot : Slot} {q : Place} (hw : Writes s q u)
    (hb : s.busy = true) (hslot : slotAt s.par s.cur s.upc = some slot)
    (hrun : u.complete.busy = true) : u.complete.upc.toNat = s.upc.toNat + 1 := by
  have hle := upc_le_of_microOp (microOp_eq_some.mpr ⟨slot, hslot, rfl⟩)
  have hne : s.upc.toNat ≠ lastIndex (cmdOp s.cur) := fun hl => by
    simp [(hw.complete_busy hb).mpr hl] at hrun
  exact hw.complete_upc hb (lt_of_le_of_ne hle hne)

end

end Sys2Proof.Machine

namespace Sys2Proof

open Sys2Proof.Machine

/-! ### The order of the trace, step by step -/

section
variable {s t : State}

theorem TraceSync.consumeInput (hs : TraceSync s) : TraceSync s.consumeInput := by
  simpa [TraceSync] using hs

/-- A command just accepted has sent nothing yet (R117). -/
theorem traceSync_of_start (h : s.upc = 0) : TraceSync s := by
  simp [TraceSync, commandEvents, h]

theorem TraceSync.of_microStep {slot : Slot} {q : Place} (hs : TraceSync s) (hb : s.busy = true)
    (hslot : slotAt s.par s.cur s.upc = some slot) (hm : MicroStep s q t)
    (hsent : SendsOrWaits (slot.event s.par).toList s t) : TraceSync t := by
  cases hm with
  | waits => exact hs
  | fails => exact traceSync_of_idle s.raiseUninit_busy
  | @completes u hw =>
    rcases hsent with hsame | htrace
    · exact hsame ▸ hs
    · intro hrun
      obtain ⟨before, hbefore⟩ := hs hb
      rw [hw.complete_cur, State.complete_par, hw.par, hw.complete_upc_of_running hb hslot hrun,
        commandEvents_succ hslot, htrace, ← hbefore, List.append_assoc]
      exact List.suffix_append before _

theorem TraceSync.of_step (hs : TraceSync s) (h : step s = .next t) : TraceSync t := by
  rcases step_cases h with ⟨rest, -, rfl⟩ | ⟨-, hb, i, hi, hx⟩ | ⟨-, w, rest, -, rfl⟩ | ⟨-, rfl⟩
  · exact traceSync_of_idle rfl
  · obtain ⟨slot, hslot, rfl⟩ := microOp_eq_some.mp hi
    obtain ⟨q, hq, -⟩ := place_of_slotAt hslot
    have hb' : s.consumeInput.busy = true := by simpa using hb
    have hslot' : slotAt s.consumeInput.par s.consumeInput.cur s.consumeInput.upc = some slot := by
      simpa using hslot
    exact hs.consumeInput.of_microStep hb' hslot' (exec_microStep hb' hslot' hq hx)
      (exec_sendsOrWaits hq hx)
  · exact traceSync_of_start rfl
  · exact hs.consumeInput

end

end Sys2Proof

namespace Sys2Proof.Proofs

open Sys2Proof.Machine

/-- Settles O47: a completed micro-operation lengthens the trace and the events so far by the event of its
entry, and every other kind of step resets the block, starts a command, ends one or leaves the trace alone. -/
theorem stepKeepsTheTraceInOrder : Obligations.StepKeepsTheTraceInOrder :=
  fun _ _ hs h => hs.of_step h

end Sys2Proof.Proofs

/-! The formats of 30_encoding.md, each read back: what the decoder makes of a word the encoder wrote, and what the
encoder makes of an instruction the decoder read. -/

namespace Sys2Proof

open Sys2Proof.Machine

section
variable {p : Params} {i : Instr}

/-- A decoder that accepts on one condition has answered under it. -/
theorem of_accepts {c : Prop} [Decidable c] {j : Instr} {e : DecodeError}
    (h : (if c then .ok j else .error e) = (.ok i : Except DecodeError Instr)) : c ∧ j = i := by
  split at h <;> cases h
  exact ⟨‹c›, rfl⟩

/-! ### Command words (R56, R57) -/

theorem decode_encode_command (p : Params) (h : Laws.tableFormat i = .h) :
    decode p (encode p i) = .ok i := by
  cases i <;> simp only [Laws.tableFormat, reduceCtorEq] at h
  case init unit => cases unit <;> rfl
  case sreset unit => cases unit <;> rfl
  case gett unit => cases unit <;> rfl
  case getpMbar => rfl
  case getpMmhg => rfl

theorem encode_decodeH (p : Params) (w : BitVec 3) : encode p (decodeH w) = .h w := by
  rcases command_cases w with h | h | h | h | h | h | h | h <;> subst h <;> rfl

/-! ### Transport requests (R59) -/

/-- Every transport request is an operation code and a data byte. -/
theorem eq_transportWord (w : BitVec 10) : ∃ o b, w = transportWord o b :=
  ⟨_, _, (append_fields (m := 2) (n := 8) w).symm⟩

theorem transportWord_data (o : BitVec 2) (b : Byte) : (transportWord o b).extractLsb' 0 8 = b :=
  append_low o b

theorem decodeT_cfg (p : Params) (b : Byte) : decodeT p (transportWord 0b00 b) =
    if b = 0 then .ok .cfg else .error .cfgDataNotZero := by
  obtain ⟨h9, h8⟩ := transportWord_op 0b00 b
  simp only [decodeT, h9, h8, transportWord_data]
  rfl

theorem decodeT_mode (p : Params) (b : Byte) : decodeT p (transportWord 0b01 b) =
    if b = 0 then .ok .modeA else if b = 1 then .ok .modeB else .error .modeDataUnknown := by
  obtain ⟨h9, h8⟩ := transportWord_op 0b01 b
  simp only [decodeT, h9, h8, transportWord_data]
  rfl

theorem decodeT_xfer (p : Params) (b : Byte) :
    decodeT p (transportWord 0b10 b) = .ok (decodeXfer p b) := by
  obtain ⟨h9, h8⟩ := transportWord_op 0b10 b
  simp only [decodeT, h9, h8, transportWord_data]
  rfl

theorem decodeT_unused (p : Params) (b : Byte) :
    decodeT p (transportWord 0b11 b) = .error .transportOpNeverSent := by
  obtain ⟨h9, h8⟩ := transportWord_op 0b11 b
  simp only [decodeT, h9, h8]
  rfl

theorem encode_decodeXfer (p : Params) (b : Byte) :
    encode p (decodeXfer p b) = .t (transportWord 0b10 b) := by
  unfold decodeXfer
  split
  · rename_i h; rw [h]; rfl
  · rfl

/-- What the premise on the parameters says: the six 2-byte patterns differ, and no pattern byte is `DUMMY` (log 9). -/
theorem unambiguous_iff : p.unambiguous = true ↔
    [p.calCmd0, p.calCmd1, p.calCmd2, p.calCmd3, p.acqT, p.acqP].Pairwise (· ≠ ·) ∧ p.dummy ∉ p.rom := by
  simp only [Params.unambiguous, Bool.and_eq_true, decide_eq_true_eq]

/-- A byte of the pattern ROM is written and not read as `RX` (R77, R78). -/
theorem decodeXfer_of_mem_rom {b : Byte} (hp : p.unambiguous = true) (hb : b ∈ p.rom) :
    decodeXfer p b = .tx b := by
  obtain ⟨-, hdummy⟩ := unambiguous_iff.mp hp
  exact if_neg fun h : b = p.dummy => hdummy (h ▸ hb)

theorem decode_encode_transport (hp : p.unambiguous = true) (hwf : i.wellFormed p = true)
    (h : Laws.tableFormat i = .t) : decode p (encode p i) = .ok i := by
  cases i <;> simp only [Laws.tableFormat, reduceCtorEq] at h
  case cfg => exact decodeT_cfg p 0
  case modeA => exact decodeT_mode p 0
  case modeB => exact decodeT_mode p 1
  case tx b =>
    have hb : b ∈ p.rom := by simpa [Instr.wellFormed] using hwf
    exact (decodeT_xfer p b).trans (congrArg _ (decodeXfer_of_mem_rom hp hb))
  case rx => exact (decodeT_xfer p p.dummy).trans (congrArg _ (if_pos rfl))

theorem encode_of_decodeT {w : BitVec 10} (h : decodeT p w = .ok i) : encode p i = .t w := by
  obtain ⟨o, b, rfl⟩ := eq_transportWord w
  have ho : ∀ o : BitVec 2, o = 0b00 ∨ o = 0b01 ∨ o = 0b10 ∨ o = 0b11 := by decide
  rcases ho o with rfl | rfl | rfl | rfl
  · rw [decodeT_cfg] at h
    obtain ⟨rfl, rfl⟩ := of_accepts h
    rfl
  · rw [decodeT_mode] at h
    split_ifs at h with h0 h1 <;> cases h
    · rw [h0]; rfl
    · rw [h1]; rfl
  · rw [decodeT_xfer] at h
    cases h
    exact encode_decodeXfer p b
  · rw [decodeT_unused] at h
    cases h

/-! ### The control state (R55, R125) -/

theorem decode_encode_internal (p : Params) (h : Laws.tableFormat i = .u) :
    decode p (encode p i) = .ok i := by
  cases i <;> simp only [Laws.tableFormat, reduceCtorEq] at h
  case chk unit k => cases unit <;> cases k <;> rfl
  case dec unit => cases unit <;> rfl
  case cmpt unit => cases unit <;> rfl
  case cmpp u => cases u <;> rfl

/-- The operation code of a command word (R56). -/
def opBits : CmdOp → BitVec 2
  | .init => 0b00
  | .sreset => 0b01
  | .gett => 0b10
  | .getp => 0b11

section
variable {cur : BitVec 3} {upc : BitVec 6}

/-- A command word is its unit bit and its operation code (R56). -/
theorem bit_append_opBits {o : CmdOp} (h : cmdOp cur = o) : bit (cmdUnit cur) ++ opBits o = cur := by
  subst h; revert cur; decide

/-- The command word of a query is a unit bit, a one and its measurement kind (R57). -/
theorem query_word (cur : BitVec 3) (h : isQuery cur) :
    bit (cmdUnit cur) ++ (0b1 : BitVec 1) ++ bit (decide (cmdOp cur = .getp)) = cur := by
  revert cur; decide

theorem slotAt_eq {k : Nat} (h : upc.toNat = k) : slotAt p cur upc = (program p cur)[k]? := by
  rw [slotAt, h]

/-- The check of a query (R123, R124). -/
theorem slotAt_chk (h : isQuery cur) (hk : upc.toNat = 0) :
    slotAt p cur upc = some (.op (.chk (cmdUnit cur) (decide (cmdOp cur = .getp)))) := by
  rw [slotAt_eq hk]
  rcases h with h | h
  · rw [program_gett h, h]; rfl
  · rw [program_getp h, h]; rfl

theorem slotAt_dec (h : cmdOp cur = .init) (hk : upc.toNat = 42) :
    slotAt p cur upc = some (.op (.dec (cmdUnit cur))) := by
  rw [slotAt_eq hk, program_init h]; rfl

theorem slotAt_cmpt (h : cmdOp cur = .gett) (hk : upc.toNat = 11) :
    slotAt p cur upc = some (.op (.cmpt (cmdUnit cur))) := by
  rw [slotAt_eq hk, program_gett h]; rfl

theorem slotAt_cmpp (h : cmdOp cur = .getp) (hk : upc.toNat = 21) :
    slotAt p cur upc = some (.op (.cmpp (unitOf (cmdUnit cur)))) := by
  rw [slotAt_eq hk, program_getp h]; rfl

@[simp] theorem unitBit_unitOf (b : Bool) : unitBit (unitOf b) = b := by cases b <;> rfl

theorem u_controlWord_congr {c : BitVec 3} {k : BitVec 6} (hc : c = cur) (hk : upc.toNat = k.toNat) :
    PortWord.u (controlWord c k) = .u (controlWord cur upc) := by
  rw [hc, BitVec.eq_of_toNat_eq hk]

/-- An internal operation found at a control state is encoded as that control state: each has one place in the
micro-programs (R125). -/
theorem encode_of_microOp (h : microOp p cur upc = some i) (hf : Laws.tableFormat i = .u) :
    encode p i = .u (controlWord cur upc) := by
  obtain ⟨slot, hslot, rfl⟩ := microOp_eq_some.mp h
  obtain ⟨q, hq, hplace⟩ := place_of_slotAt hslot
  cases slot with
  | rxh => cases hf
  | rxl dst => cases hf
  | op i =>
    cases i <;> simp only [Slot.instr, Laws.tableFormat, reduceCtorEq] at hf <;>
      obtain rfl := Option.some.inj hq
    case chk unit k =>
      obtain ⟨ho, hk⟩ := place_chk.mp hplace
      cases hslot.symm.trans (slotAt_chk ho hk)
      exact u_controlWord_congr (query_word cur ho) hk
    case dec unit =>
      obtain ⟨ho, hk⟩ := place_dec hplace
      cases hslot.symm.trans (slotAt_dec ho hk)
      exact u_controlWord_congr (bit_append_opBits ho) hk
    case cmpt unit =>
      obtain ⟨ho, hk⟩ := place_cmpt hplace
      cases hslot.symm.trans (slotAt_cmpt ho hk)
      exact u_controlWord_congr (bit_append_opBits ho) hk
    case cmpp u =>
      obtain ⟨ho, hk⟩ := place_cmpp hplace
      cases hslot.symm.trans (slotAt_cmpp ho hk)
      exact u_controlWord_congr (by rw [unitBit_unitOf]; exact bit_append_opBits ho) hk

theorem encode_of_decodeU {w : BitVec 9} (h : decodeU p w = .ok i) (hf : Laws.tableFormat i = .u) :
    encode p i = .u w := by
  have hw : controlWord (w.extractLsb' 6 3) (w.extractLsb' 0 6) = w := append_fields (m := 3) (n := 6) w
  rw [← hw, decodeU_controlWord] at h
  cases hm : microOp p (w.extractLsb' 6 3) (w.extractLsb' 0 6) with
  | none => simp [hm] at h
  | some j =>
    obtain rfl : j = i := by simpa [hm] using h
    rw [encode_of_microOp hm hf, hw]

end

/-! ### Patterns on the bus (R61 to R63) -/

theorem Pattern2.word_eq_iff {c d : Pattern2} : c.word = d.word ↔ d = c := by
  have h : c.word = d.word ↔ c.b0 = d.b0 ∧ c.b1 = d.b1 := append_inj (m := 8) (n := 8)
  cases c; cases d
  simpa only [Pattern2.mk.injEq, eq_comm] using h

/-- With patterns that differ, each of the six sequences is read back from its own: none of the patterns the decoder
tries before it is the same (R62, R63). -/
theorem decode_encode_pattern (hp : p.unambiguous = true) (h : Laws.tableFormat i = .b2) :
    decode p (encode p i) = .ok i := by
  obtain ⟨hdiffer, -⟩ := unambiguous_iff.mp hp
  simp only [List.pairwise_cons, List.forall_mem_cons] at hdiffer
  cases i <;> simp only [Laws.tableFormat, reduceCtorEq] at h <;>
    simp [encode, decode, decodeB2, Pattern2.word_eq_iff, hdiffer]

theorem encode_of_decodeB2 {w : BitVec 16} (h : decodeB2 p w = .ok i) : encode p i = .b2 w := by
  unfold decodeB2 at h
  split_ifs at h with h0 h1 h2 h3 hT hP <;> cases h
  · rw [h0]; rfl
  · rw [h1]; rfl
  · rw [h2]; rfl
  · rw [h3]; rfl
  · rw [hT]; rfl
  · rw [hP]; rfl

/-! ### Levels, delays, the reset pattern and the words read (R10, R60, R61, R65 to R69) -/

/-- Where one word alone stands for an instruction, it is read back. -/
theorem decode_encode_single (hwf : i.wellFormed p = true)
    (h : Laws.tableFormat i ∈ [.rstLevel, .auxLevel, .d, .b3]) : decode p (encode p i) = .ok i := by
  cases i <;> simp only [Laws.tableFormat, List.mem_cons, List.not_mem_nil, reduceCtorEq, or_false, or_self] at h
  case rst => rfl
  case auxon => rfl
  case wait n =>
    have hn : n = p.convDelay := by simpa [Instr.wellFormed] using hwf
    exact if_pos hn
  case sresetPattern => exact if_pos rfl

/-- A word written from two fields has those fields. -/
theorem fields_append {α : Type} {m n : Nat} (f : BitVec m → BitVec n → α) (a : BitVec m) (b : BitVec n) :
    f ((a ++ b).extractLsb' n m) ((a ++ b).extractLsb' 0 n) = f a b := by
  rw [append_high, append_low]

/-- The fields of a word read from the sensor are its operands (R65 to R69). -/
theorem decode_encode_word (p : Params) (h : Laws.tableFormat i ∈ [.rd16, .w0, .w1, .w2, .w3]) :
    decode p (encode p i) = .ok i := by
  cases i <;> simp only [Laws.tableFormat, List.mem_cons, List.not_mem_nil, reduceCtorEq, or_false, or_self] at h
  case rd16 hi lo => exact congrArg Except.ok (fields_append Instr.rd16 hi lo)
  case cal0 c1 c5hi => exact congrArg Except.ok (fields_append Instr.cal0 c1 c5hi)
  case cal1 c5lo c6 => exact congrArg Except.ok (fields_append Instr.cal1 c5lo c6)
  case cal2 c4 c2hi => exact congrArg Except.ok (fields_append Instr.cal2 c4 c2hi)
  case cal3 c3 c2lo => exact congrArg Except.ok (fields_append Instr.cal3 c3 c2lo)

end

/-- The code `11` is never sent (R59, R71). -/
theorem treq_op (e : Event) {w : BitVec 10} (h : e.treq = some w) : w.extractLsb' 8 2 ≠ 3 := by
  cases e with
  | cfg => cases h; decide
  | auxOn => cases h
  | mode m => cases m <;> cases h <;> decide
  | wait n => cases h
  | xfer out inn =>
    cases h
    exact ne_of_eq_of_ne (append_high (0b10 : BitVec 2) out) (by decide)

theorem encode_format (p : Params) (i : Instr) : (encode p i).format = Laws.tableFormat i := by
  cases i <;> rfl

end Sys2Proof

namespace Sys2Proof.Proofs

open Sys2Proof.Machine

/-- Settles O3: by the format of the instruction's row. Only the transport and the pattern words need the premise on
the parameters, and only `TX` and `WAIT` need their operand well formed. -/
theorem decodeOfEncode : Obligations.DecodeOfEncode := by
  intro p i hp hwf
  cases h : Laws.tableFormat i with
  | h => exact decode_encode_command p h
  | t => exact decode_encode_transport hp hwf h
  | u => exact decode_encode_internal p h
  | b2 => exact decode_encode_pattern hp h
  | rstLevel | auxLevel | d | b3 => exact decode_encode_single hwf (by simp [h])
  | rd16 | w0 | w1 | w2 | w3 => exact decode_encode_word p (by simp [h])

/-- Settles O4: by the format of the word. The premise on the format is used at a control state alone, where it leaves
the internal operations, each of which has one place. -/
theorem encodeOfDecode : Obligations.EncodeOfDecode := by
  intro p w i h hf
  rw [encode_format] at hf
  cases w with
  | h w => cases h; exact encode_decodeH p w
  | rst w => obtain ⟨rfl, rfl⟩ := of_accepts h; rfl
  | aux w => obtain ⟨rfl, rfl⟩ := of_accepts h; rfl
  | t w => exact encode_of_decodeT h
  | d w => obtain ⟨-, rfl⟩ := of_accepts h; rfl
  | u w => exact encode_of_decodeU h hf
  | b3 w => obtain ⟨rfl, rfl⟩ := of_accepts h; rfl
  | b2 w => exact encode_of_decodeB2 h
  | rd16 w => cases h; exact congrArg PortWord.rd16 (append_fields (m := 8) (n := 8) w)
  | w0 w => cases h; exact congrArg PortWord.w0 (append_fields (m := 15) (n := 1) w)
  | w1 w => cases h; exact congrArg PortWord.w1 (append_fields (m := 10) (n := 6) w)
  | w2 w => cases h; exact congrArg PortWord.w2 (append_fields (m := 10) (n := 6) w)
  | w3 w => cases h; exact congrArg PortWord.w3 (append_fields (m := 10) (n := 6) w)

/-- Settles O1: the eight words are what the encoder writes for the commands, and so are read back. -/
theorem commandWordMap : Obligations.CommandWordMap := fun p =>
  ⟨decode_encode_command p (i := .init false) rfl, decode_encode_command p (i := .sreset false) rfl,
   decode_encode_command p (i := .gett false) rfl, decode_encode_command p (i := .getpMbar) rfl,
   decode_encode_command p (i := .init true) rfl, decode_encode_command p (i := .sreset true) rfl,
   decode_encode_command p (i := .gett true) rfl, decode_encode_command p (i := .getpMmhg) rfl⟩

/-- Settles O2: each word is the one the encoder writes for its instruction under the default parameters, which
are unambiguous; the transport code `11` is the word that no instruction has. -/
theorem sampleWordsDecode : Obligations.SampleWordsDecode := by
  have h (i : Instr) (hwf : i.wellFormed Params.default = true) :
      decode Params.default (encode Params.default i) = .ok i := decodeOfEncode _ i (by decide) hwf
  exact ⟨h .cfg rfl, h .modeA rfl, h .modeB rfl, h (.tx 0x15) rfl, h .rx rfl,
    decodeT_unused Params.default 0x00, h (.wait 35) rfl, h .auxon rfl, h (.chk false false) rfl,
    h (.dec false) rfl, h (.cmpt false) rfl, h (.cmpp .mmHg) rfl, h .sresetPattern rfl, h .rdcal2 rfl,
    h .acqP rfl, h (.rd16 0xB7 0x5C) rfl, h (.cal0 23470 0) rfl, h (.cal1 628 25) rfl⟩

/-- Settles O6: the request words are those the encoder writes, and no event was sent with the code `11`. -/
theorem requestWords : Obligations.RequestWords := fun _ _ _ _ =>
  ⟨⟨rfl, rfl⟩, ⟨rfl, rfl⟩, ⟨rfl, rfl⟩, ⟨rfl, rfl⟩, ⟨rfl, rfl⟩, ⟨rfl, rfl⟩, fun e _ => treq_op e⟩

end Sys2Proof.Proofs

/-! The sequences (R61, R80, R82, R83): where they stand in the micro-programs, and that their steps are their row of
micro-operations, whatever the collaborators answer. -/

namespace Sys2Proof.Machine

/-! ### Steps in a row -/

section
variable {s t : State}

theorem run_succ (n : Nat) (h : step s = .next t) : run (n + 1) s = run n t := by
  simp only [run, Host.Core.run]
  rw [show Sys2Proof.core.step s = .next t from h]

/-- A block that waits for its collaborator waits for ever (R136). -/
theorem run_of_stuck (h : step s = .next s) (n : Nat) : run n s = .next s := by
  induction n with
  | zero => rfl
  | succ n ih => rw [run_succ n h, ih]

end

/-- `Performs slot m`: the entry `slot` of a micro-program is the port micro-operation `m` (R118). -/
inductive Performs : Slot → (State → Option State) → Prop
  | modeA : Performs (.op .modeA) (modeOp .a)
  | modeB : Performs (.op .modeB) (modeOp .b)
  | tx (b : Byte) : Performs (.op (.tx b)) (txOp b)
  | wait (n : BitVec 16) : Performs (.op (.wait n)) (waitOp n)
  | rxh : Performs .rxh (rxOp .high)
  | rxl (dst : RawReg) : Performs (.rxl dst) (rxOp (.low dst))

section
variable {s t : State} {slot : Slot} {m : State → Option State}

/-- An entry executed at its own place performs its micro-operation. -/
theorem Performs.exec (h : Performs slot m) (hb : s.busy = true)
    (hs : slotAt s.par s.cur s.upc = some slot) : exec slot.instr s = .next (s.perform m) := by
  have htarget := State.rxTarget_of_slotAt hb hs
  cases h with
  | modeA | modeB | tx b | wait n => rfl
  | rxh => exact congrArg (fun target => Host.Outcome.next (s.perform (rxOp target))) htarget
  | rxl dst => exact congrArg (fun target => Host.Outcome.next (s.perform (rxOp target))) htarget

theorem Performs.step (h : Performs slot m) (hb : s.busy = true) (hi : s.inputs = [])
    (hs : slotAt s.par s.cur s.upc = some slot) : step s = .next (s.perform m) := by
  have hconsume : s.consumeInput = s := by simp [State.consumeInput, hi]
  rw [step_of_busy (by simp [hi]) hb, microOp_eq_some.mpr ⟨slot, hs, rfl⟩, hconsume]
  exact h.exec hb hs

theorem request_frame {e : Event} (h : request e s = some t) :
    t.busy = s.busy ∧ t.inputs = s.inputs ∧ t.par = s.par ∧ t.cur = s.cur ∧ t.upc = s.upc := by
  obtain ⟨-, rfl⟩ := (request_eq_some e).mp h
  simp

/-- A port micro-operation itself leaves the control state and the host's inputs (R118). -/
theorem Performs.frame (h : Performs slot m) (hm : m s = some t) :
    t.busy = s.busy ∧ t.inputs = s.inputs ∧ t.par = s.par ∧ t.cur = s.cur ∧ t.upc = s.upc := by
  cases h with
  | modeA | modeB | tx b | wait n => exact request_frame hm
  | rxh =>
    obtain ⟨-, rfl⟩ := (rxOp_eq_some _).mp hm
    simp
  | rxl dst =>
    obtain ⟨-, rfl⟩ := (rxOp_eq_some _).mp hm
    simp

end

/-- The entries `slots` are the next ones of the running command, with no host input in between. -/
structure Ahead (s : State) (slots : List Slot) : Prop where
  busy : s.busy = true
  inputs : s.inputs = []
  entries : slots <+: (program s.par s.cur).drop s.upc.toNat

section
variable {s t : State} {slot next : Slot} {slots : List Slot} {m : State → Option State}
  {ms : List (State → Option State)}

theorem Ahead.entry {j : Nat} (h : Ahead s slots) (hj : j < slots.length) :
    (program s.par s.cur)[s.upc.toNat + j]? = some slots[j] := by
  rw [← List.getElem?_drop]
  rw [h.entries.getElem hj, List.getElem?_eq_getElem]

theorem Ahead.slotAt (h : Ahead s (slot :: slots)) : slotAt s.par s.cur s.upc = some slot :=
  h.entry (j := 0) (by simp)

/-- A micro-operation that completes makes way for the next entry. -/
theorem Ahead.complete (h : Ahead s (slot :: next :: slots)) (hp : Performs slot m)
    (hm : m s = some t) : Ahead t.complete (next :: slots) := by
  obtain ⟨hb, hi, hpar, hcur, hupc⟩ := hp.frame hm
  have hnext : (program s.par s.cur)[s.upc.toNat + 1]? = some next :=
    h.entry (j := 1) (by simp)
  have hlt : t.upc.toNat < lastIndex (cmdOp t.cur) := by
    have := (List.getElem?_eq_some_iff.mp hnext).1
    rw [program_length] at this
    rw [hcur, hupc]; omega
  have hbusy : t.busy = true := hb.trans h.busy
  refine ⟨?_, ?_, ?_⟩
  · simpa [State.complete_next hbusy hlt.ne] using hbusy
  · rw [State.complete_inputs, hi, h.inputs]
  · rw [State.complete_par, State.complete_cur, State.complete_upc hbusy hlt, hpar, hcur, hupc]
    have := h.entries.drop 1
    simpa [List.drop_drop] using this

/-- The entries ahead, one a step, are their micro-operations in a row: where one completes, the next one follows,
and where one waits, both sides stay where they are. -/
theorem run_eq_performAll (hp : List.Forall₂ Performs slots ms) :
    ∀ {s : State}, Ahead s slots → run slots.length s = .next (s.performAll ms) := by
  induction hp with
  | nil => exact fun _ => rfl
  | @cons slot m slots ms hslot hrest ih =>
    intro s h
    have hstep := hslot.step h.busy h.inputs h.slotAt
    rcases s.perform_cases m with ⟨t, hm, ht⟩ | ⟨hm, ht⟩ <;> rw [ht] at hstep
    · rw [List.length_cons, run_succ _ hstep, State.performAll_some ms hm]
      cases hrest with
      | nil => rfl
      | cons hnext hrest => exact ih (h.complete hslot hm)
    · rw [run_of_stuck hstep, State.performAll_none ms hm]

end

/-! ### Where the sequences stand (R121 to R125) -/

/-- The places of the three bytes of a reset pattern. -/
def patternPlaces : List (CmdOp × Nat) :=
  [(.sreset, 1), (.init, 3), (.init, 7), (.init, 16), (.init, 25), (.init, 34), (.gett, 2), (.getp, 2), (.getp, 12)]

/-- The places of the 16-bit reads, with their destinations. -/
def readPlaces : List (CmdOp × Nat × RawReg) :=
  [(.init, 13, .wd 0), (.init, 22, .wd 1), (.init, 31, .wd 2), (.init, 40, .wd 3), (.gett, 9, .d2),
   (.getp, 9, .d1), (.getp, 19, .d2)]

section
variable {p : Params} {cur : BitVec 3} {k : Nat} {dst : RawReg}

theorem pattern_entries (h : (cmdOp cur, k) ∈ patternPlaces) :
    (resetSlots p).tail <+: (program p cur).drop k := by
  cases ho : cmdOp cur <;>
    simp only [patternPlaces, ho, List.mem_cons, Prod.mk.injEq, List.not_mem_nil, reduceCtorEq, false_and,
      true_and, false_or, or_false] at h
  case init => rw [program_init ho]; rcases h with rfl | rfl | rfl | rfl | rfl <;> exact ⟨_, rfl⟩
  case sreset => rw [program_sreset ho, h]; exact ⟨_, rfl⟩
  case gett => rw [program_gett ho, h]; exact ⟨_, rfl⟩
  case getp => rw [program_getp ho]; rcases h with rfl | rfl <;> exact ⟨_, rfl⟩

theorem rdcal_entries (h : cmdOp cur = .init) (i : Fin 4) :
    rdcalSlots p i <+: (program p cur).drop (10 + 9 * i.val) := by
  rw [program_init h]
  fin_cases i <;> exact ⟨_, rfl⟩

theorem acqT_entries (h : (cmdOp cur, k) ∈ [(CmdOp.gett, 1), (.getp, 11)]) :
    acqSlots p .temperature <+: (program p cur).drop k := by
  simp only [List.mem_cons, Prod.mk.injEq, List.not_mem_nil, or_false] at h
  rcases h with ⟨ho, rfl⟩ | ⟨ho, rfl⟩
  · rw [program_gett ho]; exact ⟨_, rfl⟩
  · rw [program_getp ho]; exact ⟨_, rfl⟩

theorem acqP_entries (h : cmdOp cur = .getp) : acqSlots p .pressure <+: (program p cur).drop 1 := by
  rw [program_getp h]; exact ⟨_, rfl⟩

/-- A 16-bit read is the end of a calibration-word read or of an acquisition (R82, R83). -/
theorem read_entries (h : (cmdOp cur, k, dst) ∈ readPlaces) :
    [.rxh, .rxl dst] <+: (program p cur).drop k := by
  cases ho : cmdOp cur <;>
    simp only [readPlaces, ho, List.mem_cons, Prod.mk.injEq, List.not_mem_nil, reduceCtorEq, false_and,
      true_and, false_or, or_false] at h
  case init =>
    rw [program_init ho]
    rcases h with ⟨rfl, rfl⟩ | ⟨rfl, rfl⟩ | ⟨rfl, rfl⟩ | ⟨rfl, rfl⟩ <;> exact ⟨_, rfl⟩
  case gett => rw [program_gett ho, h.1, h.2]; exact ⟨_, rfl⟩
  case getp => rw [program_getp ho]; rcases h with ⟨rfl, rfl⟩ | ⟨rfl, rfl⟩ <;> exact ⟨_, rfl⟩

theorem exists_destination {o : CmdOp} (h : (o, k) ∈ readPlaces.map fun x => (x.1, x.2.1)) :
    ∃ dst, (o, k, dst) ∈ readPlaces := by
  obtain ⟨⟨o', k', dst⟩, hread, hplace⟩ := List.mem_map.mp h
  cases hplace
  exact ⟨dst, hread⟩

theorem places_of_readPlaces {o : CmdOp} (h : (o, k, dst) ∈ readPlaces) :
    (places o)[k]? = some .rxh ∧ (places o)[k + 1]? = some (.rxl dst) := by
  have hall : ∀ x ∈ readPlaces,
      (places x.1)[x.2.1]? = some .rxh ∧ (places x.1)[x.2.1 + 1]? = some (.rxl x.2.2) := by decide
  exact hall _ h

end

/-! ### The micro-operations of each sequence (R61, R80, R82, R83) -/

theorem performs_pattern (p : Params) : List.Forall₂ Performs (resetSlots p).tail (patternOps p) :=
  .cons (.tx _) <| .cons (.tx _) <| .cons (.tx _) .nil

theorem performs_read (dst : RawReg) :
    List.Forall₂ Performs [.rxh, .rxl dst] (read16Ops (.low dst)) :=
  .cons .rxh <| .cons (.rxl dst) .nil

theorem performs_rdcal (p : Params) (i : Fin 4) :
    List.Forall₂ Performs (rdcalSlots p i) (rdcalOps p i) :=
  .cons (.tx _) <| .cons (.tx _) <| .cons .modeB <| performs_read (.wd i)

theorem performs_acq (p : Params) (k : Kind) : List.Forall₂ Performs (acqSlots p k) (acqOps p k) :=
  .cons .modeA <| .cons (.tx _) <| .cons (.tx _) <| .cons (.tx _) <|
  .cons (.tx _) <| .cons (.tx _) <| .cons (.wait _) <| .cons .modeB <| performs_read (rawRegOf k)

theorem exec_rdcal (i : Fin 4) (s : State) :
    exec (Claim.rdcal i) s = .next (s.performAll (rdcalOps s.par i)) := by
  fin_cases i <;> rfl

/-! ### The words read (R65 to R69) -/

section
variable {s : State} {dst : RawReg}

theorem exec_rd16_eq_readWord {hi lo : Byte} (hb : s.busy = true)
    (h : (cmdOp s.cur, s.upc.toNat, dst) ∈ readPlaces) :
    exec (.rd16 hi lo) s = readWord (be16 hi lo) (.low dst) s := by
  rw [exec_rd16, State.nextRxTarget_of_place hb (places_of_readPlaces h).2]; rfl

/-- The two steps of a read, with the word as the next answers, are the read of the word (R80). -/
theorem run_two_eq_readWord (hb : s.busy = true) (hi : s.inputs = [])
    (h : (cmdOp s.cur, s.upc.toNat, dst) ∈ readPlaces) (w : RawWord) :
    run 2 (s.sensorAnswers w) = readWord w (.low dst) s :=
  run_eq_performAll (performs_read dst) ⟨hb, hi, read_entries h⟩

/-- A word read at its place goes to its destination, and its two answers are used up (R65, log 18). -/
theorem readWord_at_place (hb : s.busy = true) (h : (cmdOp s.cur, s.upc.toNat, dst) ∈ readPlaces)
    (w : RawWord) :
    readWord w (.low dst) s =
      .next { s.writeRaw dst w with
              hi := hiByte w, upc := s.upc + 2,
              trace := s.trace ++ [.xfer s.par.dummy (hiByte w), .xfer s.par.dummy (loByte w)] } := by
  obtain ⟨hfirst, hsecond⟩ := places_of_readPlaces h
  have hw : be16 (hiByte w) (loByte w) = w := append_fields (m := 8) (n := 8) w
  have hread := performAll_read16Ops (s := s.sensorAnswers w) hb (s.sensorAnswers_replies w)
    hfirst hsecond
  rw [readWord, hread, hw]
  cases dst <;> rfl

end

/-! ### The layouts of the calibration words (R66 to R69) -/

section
variable {m n : Nat} (a : BitVec m) (b : BitVec n)

theorem append_toNat : (a ++ b).toNat = a.toNat * 2 ^ n + b.toNat := by
  rw [BitVec.toNat_append, ← Nat.shiftLeft_add_eq_or_of_lt b.isLt, Nat.shiftLeft_eq]

theorem append_toNat_div : (a ++ b).toNat / 2 ^ n = a.toNat := by
  rw [append_toNat, Nat.mul_comm, Nat.mul_add_div (by positivity), Nat.div_eq_of_lt b.isLt, Nat.add_zero]

theorem append_toNat_mod : (a ++ b).toNat % 2 ^ n = b.toNat := by
  rw [append_toNat, Nat.mul_comm, Nat.mul_add_mod, Nat.mod_eq_of_lt b.isLt]

end

/-- The decoder puts the fields of the four layouts together to the coefficients (R66 to R69, R89 to R94). -/
theorem decodeWords_of_fields (c1 : BitVec 15) (c5hi : BitVec 1) (c5lo c4 c3 : BitVec 10)
    (c6 c2hi c2lo : BitVec 6) :
    decodeWords ⟨c1 ++ c5hi, c5lo ++ c6, c4 ++ c2hi, c3 ++ c2lo⟩ =
      ⟨c1.toNat, (c2hi ++ c2lo).toNat, c3.toNat, c4.toNat, (c5hi ++ c5lo).toNat, c6.toNat⟩ := by
  rw [decodeWords_eq_coefficients, Claim.coefficients, Coeffs.mk.injEq]
  refine ⟨congrArg _ (append_toNat_div c1 c5hi), congrArg _ ?_, congrArg _ (append_toNat_div c3 c2lo),
    congrArg _ (append_toNat_div c4 c2hi), congrArg _ ?_, congrArg _ (append_toNat_mod c5lo c6)⟩
  · rw [append_toNat c2hi, ← append_toNat_mod c4 c2hi, ← append_toNat_mod c3 c2lo]; rfl
  · rw [append_toNat c5hi, ← append_toNat_mod c1 c5hi, ← append_toNat_div c5lo c6]; rfl

/-! ### Bytes sent and answered (R61, R77) -/

section
variable {s : State} {x : Byte} {rest : List Reply}

/-- A byte sent whose answer is the next one of the list. -/
theorem txOp_completes (b : Byte) (h : s.replies = .completes x :: rest) :
    txOp b s = some ({ s with replies := rest }.emit (.xfer b x)) := by
  rw [txOp, request_eq_some, State.hangs_completes h, State.answered_completes h,
    State.answer_completes h]
  exact ⟨rfl, rfl⟩

/-- A byte sent inside a micro-program (R77). -/
theorem performAll_tx (b : Byte) (ms : List (State → Option State)) (hb : s.busy = true)
    (hr : s.replies = .completes x :: rest) (hpos : 0 < s.upc.toNat)
    (hlt : s.upc.toNat < lastIndex (cmdOp s.cur)) :
    s.performAll (txOp b :: ms) =
      { s with replies := rest, upc := s.upc + 1, trace := s.trace ++ [Event.xfer b x] }.performAll ms := by
  rw [State.performAll_some ms (txOp_completes b hr),
    State.complete_inner (by simpa using hb) (by simpa using hlt.ne) (by simpa using fun _ => hpos.ne')]
  rfl

/-- The first two bytes of a reset pattern stand before the end of their command. -/
theorem lt_lastIndex_of_patternPlaces {o : CmdOp} {k : Nat} (h : (o, k) ∈ patternPlaces) :
    0 < k ∧ k + 1 < lastIndex o := by
  have hall : ∀ x ∈ patternPlaces, 0 < x.2 ∧ x.2 + 1 < lastIndex x.1 := by decide
  exact hall _ h

theorem upc_add_toNat (j : Nat) {upc : BitVec 6} {o : CmdOp} (h : upc.toNat + j ≤ lastIndex o) :
    (upc + BitVec.ofNat 6 j).toNat = upc.toNat + j := by
  have := lastIndex_le o
  rw [BitVec.toNat_add, BitVec.toNat_ofNat]
  omega

/-- A reset pattern whose three bytes are answered stands, after two of them, before its last one. -/
theorem performAll_patternOps {x0 x1 x2 : Byte} (hb : s.busy = true)
    (hr : s.replies = .completes x0 :: .completes x1 :: .completes x2 :: rest)
    (h : (cmdOp s.cur, s.upc.toNat) ∈ patternPlaces) :
    s.performAll (patternOps s.par) =
      State.complete { s with
        replies := rest, upc := s.upc + 2,
        trace := s.trace ++ [.xfer s.par.resetSeq.b0 x0, .xfer s.par.resetSeq.b1 x1,
                             .xfer s.par.resetSeq.b2 x2] } := by
  obtain ⟨hpos, hlt⟩ := lt_lastIndex_of_patternPlaces h
  have hupc : (s.upc + 1).toNat = s.upc.toNat + 1 := upc_add_toNat 1 hlt.le
  refine (performAll_tx _ _ hb hr hpos (by omega)).trans
    ((performAll_tx _ _ (by exact hb) (by rfl) (by simp only [hupc]; omega)
      (by simpa only [hupc] using hlt)).trans
    ((State.performAll_some _ (txOp_completes _ (by rfl))).trans ?_))
  simp [State.emit, BitVec.add_assoc]

/-- The last byte of a host `SRESET` ends it and clears `ERR` (R122). -/
theorem State.complete_sreset_last (hb : s.busy = true) (ho : cmdOp s.cur = .sreset)
    (hk : s.upc.toNat = 3) : s.complete = { s with err := .none, busy := false } := by
  rw [State.complete_last hb (by rw [ho, hk]; rfl)]
  simp [State.bracketWrites, ho, hk]

end

end Sys2Proof.Machine

namespace Sys2Proof.Proofs

open Sys2Proof.Machine

/-- Settles O34: the entries at each place are those of the sequence, so its steps are its row of micro-operations; a
word read is the last two entries of such a sequence. -/
theorem sequencesAreTheirSteps : Obligations.SequencesAreTheirSteps := by
  intro s hb hi
  refine ⟨fun h => ?_, fun i ⟨ho, hk⟩ => ?_, fun h => ?_, fun ⟨ho, hk⟩ => ?_, fun _ _ h => ?_,
    fun f g ⟨ho, hk⟩ => ?_, fun f g ho => ⟨fun hk => ?_, fun hk => ?_, fun hk => ?_⟩⟩
  · exact run_eq_performAll (performs_pattern s.par) ⟨hb, hi, pattern_entries h⟩
  · rw [exec_rdcal]
    exact run_eq_performAll (performs_rdcal s.par i) ⟨hb, hi, hk ▸ rdcal_entries ho i⟩
  · exact run_eq_performAll (performs_acq s.par .temperature) ⟨hb, hi, acqT_entries h⟩
  · exact run_eq_performAll (performs_acq s.par .pressure) ⟨hb, hi, hk ▸ acqP_entries ho⟩
  · obtain ⟨dst, hread⟩ := exists_destination h
    rw [exec_rd16_eq_readWord hb hread]
    exact run_two_eq_readWord hb hi hread _
  · exact run_two_eq_readWord (dst := .wd 0) hb hi (by rw [ho, hk]; decide) _
  · exact run_two_eq_readWord (dst := .wd 1) hb hi (by rw [ho, hk]; decide) _
  · exact run_two_eq_readWord (dst := .wd 2) hb hi (by rw [ho, hk]; decide) _
  · exact run_two_eq_readWord (dst := .wd 3) hb hi (by rw [ho, hk]; decide) _

/-- Settles O33: each place is that of a 16-bit read into the word's own register, and the fields are read off the
decoder's arithmetic. -/
theorem calibrationWordLayouts : Obligations.CalibrationWordLayouts := by
  intro s c1 c5hi c5lo c4 c3 c6 c2hi c2lo hb ho
  refine ⟨fun hk => ?_, fun hk => ?_, fun hk => ?_, fun hk => ?_, decodeWords_of_fields ..⟩
  · exact readWord_at_place (dst := .wd 0) hb (by rw [ho, hk]; decide) _
  · exact readWord_at_place (dst := .wd 1) hb (by rw [ho, hk]; decide) _
  · exact readWord_at_place (dst := .wd 2) hb (by rw [ho, hk]; decide) _
  · exact readWord_at_place (dst := .wd 3) hb (by rw [ho, hk]; decide) _

/-- Settles O29: after two of its bytes the pattern stands before its last one, which ends a host `SRESET` and counts
on everywhere else. -/
theorem resetPatternSendsThreeBytes : Obligations.ResetPatternSendsThreeBytes := by
  intro s a rest hb hr
  refine ⟨fun h => ?_, fun ⟨ho, hk⟩ => ⟨s.cur, s.upc + 2, ?_⟩⟩
  · have hplace : (cmdOp s.cur, s.upc.toNat) ∈ patternPlaces := List.mem_cons_of_mem _ h
    have hinner : s.upc.toNat + 2 ≠ lastIndex (cmdOp s.cur) := by
      have hall : ∀ x ∈ patternPlaces.tail, x.2 + 2 ≠ lastIndex x.1 := by decide
      exact hall _ h
    have hupc : (s.upc + 2).toNat = s.upc.toNat + 2 :=
      upc_add_toNat 2 (lt_lastIndex_of_patternPlaces hplace).2
    refine congrArg Host.Outcome.next ((performAll_patternOps hb hr hplace).trans
      ((State.complete_inner (by exact hb) (by simpa only [hupc] using hinner)
        (by simp only [hupc]; omega)).trans ?_))
    simp [BitVec.add_assoc]
  · have hplace : (cmdOp s.cur, s.upc.toNat) ∈ patternPlaces := by rw [ho, hk]; decide
    have hupc : (s.upc + 2).toNat = s.upc.toNat + 2 :=
      upc_add_toNat 2 (lt_lastIndex_of_patternPlaces hplace).2
    exact congrArg Host.Outcome.next ((performAll_patternOps hb hr hplace).trans
      (State.complete_sreset_last (by exact hb) (by exact ho) (hupc.trans (by rw [hk]))))

end Sys2Proof.Proofs

/-! Transactions (R84): what keeps a trace free of a transaction without its reset sequence, and that the
micro-programs are built so. -/

namespace Sys2Proof

open Sys2Proof.Machine

/-- The event sends a byte that looks like the first one of a calibration or an acquisition command. -/
def Machine.Event.opensTransaction (p : Params) : Event → Bool
  | .xfer out _ => isFirstCommandByte p out
  | _ => false

/-- The events a row of entries sends (R125). -/
def sentBy (p : Params) (slots : List Slot) : List Event := slots.filterMap (Slot.event p)

/-! ### Traces -/

section
variable {p : Params} {l m : List Event} {e : Event}

theorem Machine.Event.opensTransaction_sent (e : Event) :
    e.sent.opensTransaction p = e.opensTransaction p := by cases e <;> rfl

/-- What entries send holds no received byte. -/
theorem Machine.Slot.sent_of_event {slot : Slot} (h : slot.event p = some e) : e.sent = e := by
  cases slot with
  | rxh | rxl dst => obtain rfl := Option.some.inj h; rfl
  | op i => cases i <;> simp only [Slot.event, Option.some.injEq, reduceCtorEq] at h <;> subst h <;> rfl

theorem map_sent_sentBy (p : Params) (slots : List Slot) :
    (sentBy p slots).map Event.sent = sentBy p slots := by
  refine (List.map_congr_left fun e he => ?_).trans (List.map_id _)
  obtain ⟨slot, -, h⟩ := List.mem_filterMap.mp he
  exact slot.sent_of_event h

theorem transactionsResetFirst_iff : transactionsResetFirst p l ↔
    ∀ before e after, l = before ++ e :: after → e.opensTransaction p = true →
      resetSequence p <:+ before.map Event.sent := by
  constructor
  · intro h before e after hl he
    cases e with
    | xfer out inn => exact h before out inn after hl he
    | _ => simp [Event.opensTransaction] at he
  · exact fun h before out inn after hl he => h before _ after hl he

theorem transactionsResetFirst_nil : transactionsResetFirst p [] := by
  simp [transactionsResetFirst]

/-- One event more at the end keeps the transactions in order if it opens none, or follows the reset sequence. -/
theorem transactionsResetFirst_concat : transactionsResetFirst p (l ++ [e]) ↔
    transactionsResetFirst p l ∧
      (e.opensTransaction p = true → resetSequence p <:+ l.map Event.sent) := by
  simp only [transactionsResetFirst_iff]
  constructor
  · exact fun h => ⟨fun before e' after hl => h before e' (after ++ [e]) (by simp [hl]), h l e [] rfl⟩
  · rintro ⟨hl, he⟩ before e' after h
    rcases List.eq_nil_or_concat after with rfl | ⟨after, last, rfl⟩
    · obtain ⟨rfl, hsame⟩ := List.append_inj' h rfl
      exact (List.cons.inj hsame).1 ▸ he
    · rw [List.concat_eq_append, ← List.cons_append, ← List.append_assoc] at h
      exact hl before e' after (List.append_inj' h rfl).1

theorem transactionsResetFirst.append_quiet (hl : transactionsResetFirst p l)
    (hm : ∀ e ∈ m, e.opensTransaction p = false) : transactionsResetFirst p (l ++ m) := by
  induction m using List.reverseRecOn with
  | nil => simpa using hl
  | append_singleton m e ih =>
    rw [← List.append_assoc]
    exact transactionsResetFirst_concat.mpr
      ⟨ih fun e he => hm e (List.mem_append_left _ he), fun he => by simp [hm e (by simp)] at he⟩

/-- A whole transaction: the reset sequence, the event that opens it, and events that open no other. -/
theorem transactionsResetFirst.append_transaction (hl : transactionsResetFirst p l)
    (hreset : ∀ e ∈ resetSequence p, e.opensTransaction p = false)
    (hm : ∀ e ∈ m, e.opensTransaction p = false) :
    transactionsResetFirst p (l ++ resetSequence p ++ e :: m) := by
  rw [List.append_cons]
  refine (transactionsResetFirst_concat.mpr ⟨hl.append_quiet hreset, fun _ => ?_⟩).append_quiet hm
  rw [List.map_append]
  exact List.suffix_append _ _

/-! ### The micro-programs -/

section
variable (hp : firstBytesDistinct p = true)
include hp

theorem resetSequence_quiet : ∀ e ∈ resetSequence p, e.opensTransaction p = false := by
  simp_all [firstBytesDistinct, resetSequence, Event.opensTransaction]

theorem rdcalSlots_quiet (i : Fin 4) :
    ∀ e ∈ sentBy p (rdcalSlots p i).tail, e.opensTransaction p = false := by
  fin_cases i <;>
    simp_all [firstBytesDistinct, sentBy, rdcalSlots, Slot.event, Params.calCmd, Event.opensTransaction]

theorem acqSlots_quiet (k : Kind) :
    ∀ e ∈ sentBy p ((acqSlots p k).drop 5), e.opensTransaction p = false := by
  cases k <;>
    simp_all [firstBytesDistinct, sentBy, acqSlots, resetSlots, Slot.event, Params.acqCmd,
      Event.opensTransaction]

theorem transactionsResetFirst.append_reset (hl : transactionsResetFirst p l) :
    transactionsResetFirst p (l ++ sentBy p (resetSlots p)) :=
  hl.append_quiet (resetSequence_quiet hp)

theorem transactionsResetFirst.append_rdcal (hl : transactionsResetFirst p l) (i : Fin 4) :
    transactionsResetFirst p (l ++ sentBy p (resetSlots p) ++ sentBy p (rdcalSlots p i)) :=
  hl.append_transaction (resetSequence_quiet hp) (rdcalSlots_quiet hp i)

theorem transactionsResetFirst.append_acq (hl : transactionsResetFirst p l) (k : Kind) :
    transactionsResetFirst p (l ++ sentBy p (acqSlots p k)) := by
  rw [acqSlots, sentBy, List.filterMap_append, ← List.append_assoc]
  exact hl.append_transaction (resetSequence_quiet hp) (acqSlots_quiet hp k)

/-- Every micro-program keeps R84 by itself: the reset sequence stands before each of its command bytes (R125). -/
theorem program_transactionsResetFirst (cur : BitVec 3) :
    transactionsResetFirst p (sentBy p (program p cur)) := by
  have hnil := transactionsResetFirst_nil (p := p)
  unfold program
  cases cmdOp cur with
  | init =>
    have hhead : transactionsResetFirst p [.cfg, .auxOn] :=
      hnil.append_quiet (m := [.cfg, .auxOn]) (by simp [Event.opensTransaction])
    simpa [sentBy, Slot.event, List.filterMap_cons] using
      ((((hhead.append_reset hp).append_rdcal hp 0).append_rdcal hp 1).append_rdcal hp 2).append_rdcal
        hp 3
  | sreset => exact hnil.append_reset hp
  | gett => simpa [sentBy, Slot.event, List.filterMap_cons] using hnil.append_acq hp .temperature
  | getp =>
    simpa [sentBy, Slot.event, List.filterMap_cons] using
      (hnil.append_acq hp .pressure).append_acq hp .temperature

/-- Where an entry that opens a transaction stands, its command has just sent the reset sequence. -/
theorem resetSequence_before_entry {cur : BitVec 3} {upc : BitVec 6} {slot : Slot}
    (hslot : slotAt p cur upc = some slot) (he : slot.event p = some e)
    (hopens : e.opensTransaction p = true) : resetSequence p <:+ commandEvents p cur upc.toNat := by
  obtain ⟨hlt, hget⟩ := List.getElem?_eq_some_iff.mp hslot
  have hsplit : sentBy p (program p cur) = commandEvents p cur upc.toNat ++
      e :: sentBy p ((program p cur).drop (upc.toNat + 1)) := by
    conv_lhs => rw [← List.take_append_drop upc.toNat (program p cur), List.drop_eq_getElem_cons hlt, hget]
    rw [sentBy, List.filterMap_append, List.filterMap_cons_some he]; rfl
  have h := transactionsResetFirst_iff.mp (program_transactionsResetFirst hp cur) _ e _ hsplit hopens
  rwa [commandEvents, ← sentBy, map_sent_sentBy] at h

end

/-! ### Every step -/

section
variable {s t : State}

/-- The event of a micro-operation joins the events its command has sent so far (R84). -/
theorem transactionsResetFirst.of_exec {slot : Slot} (hl : transactionsResetFirst s.par s.trace)
    (hp : firstBytesDistinct s.par = true) (hs : TraceSync s) (hb : s.busy = true)
    (hslot : slotAt s.par s.cur s.upc = some slot) (hx : exec slot.instr s = .next t) :
    transactionsResetFirst s.par t.trace := by
  rcases exec_microOp_addsAtMostOneEvent (microOp_eq_some.mpr ⟨slot, hslot, rfl⟩) hx with
    htrace | ⟨e, htrace⟩
  · rwa [htrace]
  · obtain ⟨q, hq, -⟩ := place_of_slotAt hslot
    have hevent : slot.event s.par = some e.sent := by
      rcases exec_sendsOrWaits hq hx with rfl | hsent
      · simp at htrace
      · rw [htrace, List.map_append, List.append_cancel_left_eq] at hsent
        cases he : slot.event s.par <;> simp_all
    rw [htrace]
    refine transactionsResetFirst_concat.mpr ⟨hl, fun hopens => ?_⟩
    exact (resetSequence_before_entry hp hslot hevent (by rwa [Event.opensTransaction_sent])).trans (hs hb)

theorem transactionsResetFirst.of_step (hl : transactionsResetFirst s.par s.trace)
    (hp : firstBytesDistinct s.par = true) (hs : TraceSync s) (h : step s = .next t) :
    transactionsResetFirst t.par t.trace := by
  rw [step_par h]
  rcases step_cases h with ⟨rest, -, rfl⟩ | ⟨-, hb, i, hi, hx⟩ | ⟨-, w, rest, -, rfl⟩ | ⟨-, rfl⟩
  · exact transactionsResetFirst_nil
  · obtain ⟨slot, hslot, rfl⟩ := microOp_eq_some.mp hi
    simpa using transactionsResetFirst.of_exec (s := s.consumeInput) (by simpa using hl) (by simpa using hp)
      hs.consumeInput (by simpa using hb) (by simpa using hslot) hx
  · exact hl
  · simpa using hl

end

/-! ### Runs -/

/-- A property that every step keeps, and that keeps every step from stopping, holds along every run. -/
theorem run_of_step_keeps {P : State → Prop} (h : ∀ s, P s → ∃ t, step s = .next t ∧ P t) (n : Nat) :
    ∀ {s : State}, P s → ∃ t, run n s = .next t ∧ P t := by
  induction n with
  | zero => exact fun {s} hs => ⟨s, rfl, hs⟩
  | succ n ih =>
    intro s hs
    obtain ⟨t, ht, hP⟩ := h s hs
    rw [run_succ n ht]
    exact ih hP

end

end Sys2Proof

namespace Sys2Proof.Proofs

open Sys2Proof.Machine

/-- Settles O48: a step adds at most the event of the entry it stands at; if that opens a transaction, the command has
just sent the reset sequence, and the trace ends with what the command has sent. -/
theorem everyTransactionIsResetFirst : Obligations.EveryTransactionIsResetFirst :=
  ⟨fun _ _ hp hs hl h => ⟨step_par h ▸ hp, hs.of_step h, hl.of_step hp hs h⟩,
   fun p epoch => ⟨inv_initial p epoch 0 [] [], traceSync_of_idle rfl, transactionsResetFirst_nil⟩⟩

/-- Settles O49: the step lemma of `EveryTransactionIsResetFirst`, along a run that `Inv` keeps from stopping. -/
theorem runsResetBeforeEveryTransaction : Obligations.RunsResetBeforeEveryTransaction := by
  intro p inputs replies n hp
  have hkeeps (s : State)
      (hs : s.par = p ∧ Inv s ∧ TraceSync s ∧ transactionsResetFirst s.par s.trace) :
      ∃ t, step s = .next t ∧
        t.par = p ∧ Inv t ∧ TraceSync t ∧ transactionsResetFirst t.par t.trace := by
    obtain ⟨rfl, hi, hsync, hl⟩ := hs
    obtain ⟨t, ht⟩ := step_next hi.position
    exact ⟨t, ht, step_par ht, hi.of_step ht, hsync.of_step ht, hl.of_step hp hsync ht⟩
  obtain ⟨t, hrun, rfl, -, -, hl⟩ := run_of_step_keeps hkeeps n
    ⟨rfl, inv_initial p 0 0 inputs replies, traceSync_of_idle rfl, transactionsResetFirst_nil⟩
  exact ⟨t, hrun, hl⟩

end Sys2Proof.Proofs

/-! Where an instruction stands (R118, R125), and the clock mode there (R85): the mode is selected by the `MODE`
entries alone, so it is a question about places. -/

namespace Sys2Proof

open Sys2Proof.Machine Sys2Proof.Claim

/-! ### The place of the micro-operation a command stands at -/

section
variable {s : State} {i : Instr} {q : Place}

/-- An instruction other than `RX` names its entry, and so its place. -/
theorem Claim.StandsAt.place (h : StandsAt s i) (hq : (Slot.op i).place = some q) :
    (places (cmdOp s.cur))[s.upc.toNat]? = some q := by
  obtain ⟨slot, hslot, rfl⟩ := microOp_eq_some.mp h.2
  obtain ⟨q', hq', hplace⟩ := place_of_slotAt hslot
  cases slot with
  | op i => exact hplace.trans (hq'.symm.trans hq)
  | rxh | rxl dst => simp [Slot.instr, Slot.place] at hq

/-- `RX` is the first or the second exchange of a 16-bit read (R80). -/
theorem Claim.StandsAt.rx_place (h : StandsAt s .rx) :
    (slotAt s.par s.cur s.upc = some .rxh ∧ (places (cmdOp s.cur))[s.upc.toNat]? = some .rxh) ∨
    ∃ dst, slotAt s.par s.cur s.upc = some (.rxl dst) ∧
      (places (cmdOp s.cur))[s.upc.toNat]? = some (.rxl dst) := by
  obtain ⟨slot, hslot, hinstr⟩ := microOp_eq_some.mp h.2
  obtain ⟨q, hq, hplace⟩ := place_of_slotAt hslot
  cases slot with
  | op i =>
    obtain rfl : i = .rx := hinstr
    simp [Slot.place] at hq
  | rxh => exact .inl ⟨hslot, hplace.trans hq.symm⟩
  | rxl dst => exact .inr ⟨dst, hslot, hplace.trans hq.symm⟩

end

/-! ### The clock mode (R85) -/

/-- The clock mode an event selects. -/
def Machine.Event.selects : Event → Option ModeSel
  | .mode m => some m
  | _ => none

/-- The clock mode the event of a place selects. -/
def Machine.Place.selects : Place → Option ModeSel
  | .modeA => some .a
  | .modeB => some .b
  | _ => none

/-- The clock mode the exchange of a place is made in. -/
def Machine.Place.exchangesIn : Place → Option ModeSel
  | .tx => some .a
  | .rxh | .rxl _ => some .b
  | _ => none

section
variable {p : Params} {cur : BitVec 3} {s : State} {o : CmdOp} {k : Nat} {q : Place} {m : ModeSel}

theorem lastMode_eq_getLast (trace : List Event) :
    lastMode trace = (trace.filterMap Event.selects).getLast? := by
  induction trace using List.reverseRecOn with
  | nil => rfl
  | append_singleton l e ih =>
    unfold lastMode at ih ⊢
    rw [List.foldl_append, ih]
    cases e <;> simp [Event.selects]

/-- The end of a trace decides, if it selects a mode at all. -/
theorem lastMode_of_suffix {l trace : List Event} (h : l <:+ trace.map Event.sent)
    (hl : lastMode l = some m) : lastMode trace = some m := by
  have hsent : (trace.map Event.sent).filterMap Event.selects = trace.filterMap Event.selects := by
    rw [List.filterMap_map]
    exact List.filterMap_congr fun e _ => by cases e <;> rfl
  obtain ⟨before, hbefore⟩ := h
  rw [lastMode_eq_getLast] at hl ⊢
  rw [← hsent, ← hbefore, List.filterMap_append, List.getLast?_append, hl, Option.some_or]

theorem Machine.Slot.event_selects (slot : Slot) :
    (slot.event p).bind Event.selects = slot.place.bind Place.selects := by
  cases slot with
  | rxh | rxl dst => rfl
  | op i => cases i <;> rfl

/-- The mode after the first `k` micro-operations of a command, read off its places. -/
theorem lastMode_commandEvents (k : Nat) : lastMode (commandEvents p cur k) =
    (((places (cmdOp cur)).take k).filterMap Place.selects).getLast? := by
  have hplaces : ((program p cur).take k).map Slot.place = ((places (cmdOp cur)).take k).map some := by
    rw [List.map_take, program_places, List.map_take]
  have hselects := congrArg (List.filterMap fun q : Option Place => q.bind Place.selects) hplaces
  rw [List.filterMap_map, List.filterMap_map] at hselects
  rw [lastMode_eq_getLast, commandEvents, List.filterMap_filterMap]
  simp only [Slot.event_selects]
  exact congrArg List.getLast? hselects

/-- Everywhere in the micro-programs the mode of an exchange is selected before it (R125). -/
theorem selected_at_place (h : (places o)[k]? = some q) (hm : q.exchangesIn = some m) :
    (((places o).take k).filterMap Place.selects).getLast? = some m :=
  places_forall (P := fun o k q => ∀ m ∈ q.exchangesIn,
    (((places o).take k).filterMap Place.selects).getLast? = some m) (by decide) h m hm

theorem TraceSync.lastMode_at_place (hs : TraceSync s) (hb : s.busy = true)
    (hq : (places (cmdOp s.cur))[s.upc.toNat]? = some q) (hm : q.exchangesIn = some m) :
    lastMode s.trace = some m :=
  lastMode_of_suffix (hs hb) ((lastMode_commandEvents _).trans (selected_at_place hq hm))

end

end Sys2Proof

namespace Sys2Proof.Proofs

open Sys2Proof.Machine

/-- Settles O50: the trace ends with what the command has sent so far, and the mode selected last there depends on the
place alone. -/
theorem clockModeDiscipline : Obligations.ClockModeDiscipline := by
  intro s hs
  refine ⟨fun b h => hs.lastMode_at_place h.1 (h.place rfl) rfl, fun h => ?_⟩
  rcases h.rx_place with ⟨-, hq⟩ | ⟨dst, -, hq⟩
  · exact hs.lastMode_at_place h.1 hq rfl
  · exact hs.lastMode_at_place h.1 hq rfl

end Sys2Proof.Proofs

/-! One port micro-operation at its place, answered (R74 to R80). -/

namespace Sys2Proof

open Sys2Proof.Machine Sys2Proof.Claim

/-! ### Where the port micro-operations stand (R125) -/

section
variable {s : State} {o : CmdOp} {k : Nat} {q : Place}

theorem Machine.place_cfg (h : (places o)[k]? = some .cfg) : o = .init ∧ k = 0 :=
  places_forall (P := fun o k q => q = .cfg → o = .init ∧ k = 0) (by decide) h rfl

/-- A byte sent ends no command but a host `SRESET`. -/
theorem Machine.place_tx_inner (h : (places o)[k]? = some .tx) (hs : ¬(o = .sreset ∧ k = 3)) :
    k ≠ lastIndex o ∧ ¬(o = .init ∧ k = 0) := by
  refine ⟨fun hl => ?_, fun ⟨ho, hk⟩ => ?_⟩
  · simpa [hs] using (place_last h).mp hl
  · subst ho hk; cases h

theorem Machine.place_rxh : (places o)[k]? = some .rxh ↔ (o, k) ∈ readPlaces.map fun x => (x.1, x.2.1) := by
  constructor
  · exact fun h => places_forall
      (P := fun o k q => q = .rxh → (o, k) ∈ readPlaces.map fun x => (x.1, x.2.1)) (by decide) h rfl
  · intro h
    obtain ⟨dst, hread⟩ := exists_destination h
    exact (places_of_readPlaces hread).1

theorem Machine.place_rxl {dst : RawReg} : (places o)[k]? = some (.rxl dst) ↔
    (o, k, dst) ∈ readPlaces.map fun x => (x.1, x.2.1 + 1, x.2.2) := by
  constructor
  · intro h
    cases dst with
    | wd i => obtain ⟨rfl, rfl⟩ := place_rxl_wd h; revert i; decide
    | d1 => obtain ⟨rfl, rfl⟩ := place_rxl_d1 h; decide
    | d2 => rcases place_rxl_d2 h with ⟨rfl, rfl⟩ | ⟨rfl, rfl⟩ <;> decide
  · intro h
    obtain ⟨⟨o', k', dst'⟩, hread, heq⟩ := List.mem_map.mp h
    cases heq
    exact (places_of_readPlaces hread).2

/-- The one delay is `CONV_DELAY` (R79). -/
theorem Claim.StandsAt.wait_count {n : BitVec 16} (h : StandsAt s (.wait n)) : n = s.par.convDelay := by
  obtain ⟨slot, hslot, hinstr⟩ := microOp_eq_some.mp h.2
  cases slot with
  | rxh | rxl dst => simp [Slot.instr] at hinstr
  | op i =>
    obtain rfl : i = .wait n := hinstr
    have hmem := List.mem_of_getElem? hslot
    cases ho : cmdOp s.cur with
    | init => simp [program_init ho] at hmem
    | sreset => simp [program_sreset ho] at hmem
    | gett => simpa [program_gett ho] using hmem
    | getp => simpa [program_getp ho] using hmem

end

/-! ### Answered requests (log 3) -/

section
variable {s s' : State} {b : Byte} {dst : RawReg}

theorem Claim.Answered.resolve (h : Answered s b s') :
    s.hangs = false ∧ s.answer = b ∧ s.answered = s' := by
  rcases h with ⟨rest, hr, rfl⟩ | ⟨hr, rfl, rfl⟩
  · exact ⟨State.hangs_completes hr, State.answer_completes hr, State.answered_completes hr⟩
  · exact ⟨State.hangs_nil hr, State.answer_nil hr, State.answered_nil hr⟩

/-- Once answered, a request emits its event and completes. -/
theorem Claim.Answered.perform_request (h : Answered s b s') (e : Byte → Event) :
    s.perform (fun u => request (e u.answer) u) = (s'.emit (e b)).complete := by
  obtain ⟨hh, rfl, rfl⟩ := h.resolve
  simp only [State.perform, (request_eq_some _).mpr ⟨hh, rfl⟩]

theorem Claim.Answered.perform_rxOp (h : Answered s b s') (target : RxTarget) :
    s.perform (rxOp target) = ((s'.emit (.xfer s.par.dummy b)).receive target b).complete := by
  obtain ⟨hh, rfl, rfl⟩ := h.resolve
  simp only [State.perform, (rxOp_eq_some _).mpr ⟨hh, rfl⟩]

theorem Claim.Answered.control (h : Answered s b s') :
    s'.busy = s.busy ∧ s'.cur = s.cur ∧ s'.upc = s.upc ∧ s'.trace = s.trace ∧ s'.hi = s.hi := by
  obtain ⟨-, -, rfl⟩ := h.resolve
  simp

/-- Away from the bracketed indices an event is all that a micro-operation leaves behind (R118). -/
theorem Machine.State.complete_emit_inner (e : Event) (hb : s.busy = true)
    (hinner : s.upc.toNat ≠ lastIndex (cmdOp s.cur) ∧ ¬(cmdOp s.cur = .init ∧ s.upc.toNat = 0)) :
    (s.emit e).complete = { s with trace := s.trace ++ [e], upc := s.upc + 1 } :=
  State.complete_inner (s := s.emit e) hb hinner.1 hinner.2

/-- Inside a micro-program an answered request writes no register but the control state. -/
theorem Claim.Answered.perform_request_inner (h : Answered s b s') (e : Byte → Event)
    (hb : s.busy = true)
    (hinner : s.upc.toNat ≠ lastIndex (cmdOp s.cur) ∧ ¬(cmdOp s.cur = .init ∧ s.upc.toNat = 0)) :
    s.perform (fun u => request (e u.answer) u) =
      { s' with trace := s.trace ++ [e b], upc := s.upc + 1 } := by
  obtain ⟨hbusy, hcur, hupc, htrace, -⟩ := h.control
  rw [← hcur, ← hupc] at hinner
  rw [h.perform_request, State.complete_emit_inner _ (hbusy.trans hb) hinner, htrace, hupc]

/-- `RXH` latches its byte and writes nothing else (R80). -/
theorem Claim.Answered.perform_rxh (h : Answered s b s') (hb : s.busy = true)
    (hq : (places (cmdOp s.cur))[s.upc.toNat]? = some .rxh) :
    s.perform (rxOp .high) =
      { s' with trace := s.trace ++ [.xfer s.par.dummy b], hi := b, upc := s.upc + 1 } := by
  obtain ⟨hbusy, hcur, hupc, htrace, -⟩ := h.control
  obtain ⟨hl, hbracket⟩ := place_inner hq (by decide)
  rw [← hcur, ← hupc] at hl hbracket
  rw [h.perform_rxOp, ← htrace, ← hupc]
  exact State.complete_inner (s := { s'.emit _ with hi := b }) (hbusy.trans hb) hl hbracket

/-- `RXL(dst)` writes both bytes to its destination and nothing else (R80). -/
theorem Claim.Answered.perform_rxl (h : Answered s b s') (hb : s.busy = true)
    (hq : (places (cmdOp s.cur))[s.upc.toNat]? = some (.rxl dst)) :
    s.perform (rxOp (.low dst)) =
      { s'.writeRaw dst (s.hi ++ b) with
        trace := s.trace ++ [.xfer s.par.dummy b], upc := s.upc + 1 } := by
  obtain ⟨hbusy, hcur, hupc, htrace, hhi⟩ := h.control
  obtain ⟨hl, hbracket⟩ := place_inner hq (by simp)
  rw [← hcur, ← hupc] at hl hbracket
  rw [h.perform_rxOp, ← htrace, ← hupc, ← hhi,
    State.complete_inner (by simpa using hbusy.trans hb) (by simpa using hl) (by simpa using hbracket)]
  cases dst <;> rfl

theorem Machine.exec_rx (s : State) : exec .rx s = .next (s.perform (rxOp s.rxTarget)) := rfl

theorem Claim.StandsAt.rxTarget_high (h : StandsAt s .rx)
    (hq : (places (cmdOp s.cur))[s.upc.toNat]? = some .rxh) : s.rxTarget = .high := by
  rcases h.rx_place with ⟨hslot, -⟩ | ⟨dst, -, hq'⟩
  · exact State.rxTarget_of_slotAt h.1 hslot
  · simp [hq] at hq'

end

end Sys2Proof

namespace Sys2Proof.Proofs

open Sys2Proof.Machine Sys2Proof.Claim

/-- Settles O12: `CFG` stands at the head of `INIT` alone, where its completion clears `LC`. -/
theorem cfgConfiguresTheTransport : Obligations.CfgConfiguresTheTransport := by
  intro s s' b h ha
  obtain ⟨ho, hk⟩ := place_cfg (h.place rfl)
  obtain ⟨hbusy, hcur, hupc, htrace, -⟩ := ha.control
  refine congrArg Host.Outcome.next ((ha.perform_request fun _ => .cfg).trans ?_)
  rw [State.complete_next (by simpa [hbusy] using h.1) (by simp [hcur, ho, hupc, hk, lastIndex])]
  simp [State.bracketWrites, State.emit, hcur, ho, hupc, hk, htrace]

/-- Settles O13: `AUXON` issues no request, so it completes at once. -/
theorem auxonEnablesTheClock : Obligations.AuxonEnablesTheClock := by
  intro s h
  have hinner := place_inner (h.place rfl) (by decide)
  exact congrArg Host.Outcome.next
    (State.complete_emit_inner (s := { s with auxen := true }) .auxOn h.1 hinner)

/-- Settles O14: neither `MODE` is the last of its command or stands at a bracketed index. -/
theorem modeSelectsAClockMode : Obligations.ModeSelectsAClockMode := by
  refine fun s s' b ha => ⟨fun h => ?_, fun h => ?_⟩
  · exact congrArg Host.Outcome.next
      (ha.perform_request_inner (fun _ => .mode .a) h.1 (place_inner (h.place rfl) (by decide)))
  · exact congrArg Host.Outcome.next
      (ha.perform_request_inner (fun _ => .mode .b) h.1 (place_inner (h.place rfl) (by decide)))

/-- Settles O15: a byte sent counts on, but for the last one of a host `SRESET`. -/
theorem txSendsAByte : Obligations.TxSendsAByte := by
  refine fun s s' b inn h ha => ⟨fun hs => ?_, fun ⟨ho, hk⟩ => ⟨s.cur, s.upc, ?_⟩⟩
  · exact congrArg Host.Outcome.next
      (ha.perform_request_inner (.xfer b) h.1 (place_tx_inner (h.place rfl) hs))
  · obtain ⟨hbusy, hcur, hupc, htrace, -⟩ := ha.control
    refine congrArg Host.Outcome.next ((ha.perform_request (.xfer b)).trans ?_)
    rw [State.complete_sreset_last (by exact hbusy.trans h.1) (by simpa [hcur] using ho) (by simpa [hupc] using hk)]
    simp [State.emit, htrace, ← hcur, ← hupc]

/-- Settles O17: a delay is requested inside a query, with the one count there is. -/
theorem waitRequestsADelay : Obligations.WaitRequestsADelay := fun _ _ _ n h ha =>
  ⟨h.wait_count, congrArg Host.Outcome.next
    (ha.perform_request_inner (fun _ => .wait n) h.1 (place_inner (h.place rfl) (by decide)))⟩

/-- Settles O16: an `RX` stands at one of the fourteen exchanges, and its entry says what becomes of its byte. -/
theorem rxReadsSixteenBits : Obligations.RxReadsSixteenBits := by
  intro s s' b h ha
  have hfirst : (cmdOp s.cur, s.upc.toNat) ∈ readPlaces.map (fun x => (x.1, x.2.1)) ↔ _ :=
    place_rxh.symm
  have hsecond (dst : RawReg) : (cmdOp s.cur, s.upc.toNat, dst) ∈
      readPlaces.map (fun x => (x.1, x.2.1 + 1, x.2.2)) ↔ _ := place_rxl.symm
  refine ⟨h.rx_place.imp (fun hq => hfirst.mpr hq.2) fun ⟨dst, _, hq⟩ => ⟨dst, (hsecond dst).mpr hq⟩,
    fun hmem => ?_, fun dst hmem => ?_⟩
  · have hq := hfirst.mp hmem
    rw [exec_rx, h.rxTarget_high hq, ha.perform_rxh h.1 hq]
  · have hq := (hsecond dst).mp hmem
    rw [exec_rx, State.rxTarget_of_slotAt h.1 (slotAt_of_place_rxl hq), Slot.rxTarget,
      ha.perform_rxl h.1 hq]

end Sys2Proof.Proofs

/-! The sequences `RDCAL` and `ACQ` (R82, R83): a row of answered requests, then a 16-bit read. -/

namespace Sys2Proof

open Sys2Proof.Machine

/-! ### Answered requests in a row -/

/-- A port request other than `RX`, by the event it becomes, with the byte that answers it (R76, R77, R79). -/
structure Machine.Sent where
  event : Byte → Event
  answer : Byte

/-- The micro-operation that issues the request. -/
def Machine.Sent.op (x : Sent) (s : State) : Option State := request (x.event s.answer) s

/-- The event the request becomes. -/
def Machine.Sent.seen (x : Sent) : Event := x.event x.answer

section
variable {s : State} {hi lo : Byte} {rest : List Reply} {dst : RawReg} {x : Sent}

theorem Machine.Sent.op_answered (h : s.replies = .completes x.answer :: rest) :
    x.op s = some ({ s with replies := rest }.emit x.seen) := by
  rw [Sent.op, request_eq_some, State.hangs_completes h, State.answered_completes h,
    State.answer_completes h]
  exact ⟨rfl, rfl⟩

/-- An answered request inside a micro-program writes no register but the control state. -/
theorem Machine.performAll_sent (ms : List (State → Option State))
    (hb : s.busy = true) (hr : s.replies = .completes x.answer :: rest) (hpos : 0 < s.upc.toNat)
    (hlt : s.upc.toNat < lastIndex (cmdOp s.cur)) :
    s.performAll (x.op :: ms) =
      { s with replies := rest, upc := s.upc + 1, trace := s.trace ++ [x.seen] }.performAll ms := by
  rw [State.performAll_some ms (Sent.op_answered hr),
    State.complete_inner (by simpa using hb) (by simpa using hlt.ne) (by simpa using fun _ => hpos.ne')]
  rfl

/-- So do any number of them, by induction on the row (R49). -/
theorem Machine.performAll_row (ms : List (State → Option State)) (row : List Sent) :
    ∀ {s : State}, s.busy = true → s.replies = row.map (fun x => .completes x.answer) ++ rest →
      0 < s.upc.toNat → s.upc.toNat + row.length ≤ lastIndex (cmdOp s.cur) →
      s.performAll (row.map Sent.op ++ ms) =
        { s with replies := rest, upc := s.upc + BitVec.ofNat 6 row.length,
                 trace := s.trace ++ row.map Sent.seen }.performAll ms := by
  induction row with
  | nil =>
    intro s hb hr hpos hle
    obtain rfl : s.replies = rest := hr
    simp
  | cons x row ih =>
    intro s hb hr hpos hle
    rw [List.length_cons] at hle
    have hupc : (s.upc + 1).toNat = s.upc.toNat + 1 :=
      upc_add_toNat 1 (o := cmdOp s.cur) (by omega)
    refine (performAll_sent _ hb hr hpos (by omega)).trans
      ((ih (by exact hb) rfl (by simp only [hupc]; omega) (by simp only [hupc]; omega)).trans ?_)
    have hcount : s.upc + 1 + BitVec.ofNat 6 row.length = s.upc + BitVec.ofNat 6 (row.length + 1) := by
      rw [BitVec.add_assoc, Nat.add_comm row.length, BitVec.ofNat_add]; rfl
    simp only [hcount, List.length_cons, List.map_cons, List.append_assoc, List.singleton_append]

/-- A row of requests and then a 16-bit read, all answered (R82, R83). -/
theorem Machine.performAll_row_read (row : List Sent) (hb : s.busy = true)
    (hr : s.replies = row.map (fun x => .completes x.answer) ++ .completes hi :: .completes lo :: rest)
    (hpos : 0 < s.upc.toNat) (hread : (cmdOp s.cur, s.upc.toNat + row.length, dst) ∈ readPlaces) :
    s.performAll (row.map Sent.op ++ read16Ops (.low dst)) =
      { s.writeRaw dst (hi ++ lo) with
        hi := hi, replies := rest, upc := s.upc + BitVec.ofNat 6 (row.length + 2),
        trace := s.trace ++ (row.map Sent.seen ++
          [.xfer s.par.dummy hi, .xfer s.par.dummy lo]) } := by
  obtain ⟨hfirst, hsecond⟩ := places_of_readPlaces hread
  have hle : s.upc.toNat + row.length ≤ lastIndex (cmdOp s.cur) := by
    have hlen : (places (cmdOp s.cur)).length = lastIndex (cmdOp s.cur) + 1 := by
      cases cmdOp s.cur <;> rfl
    have := index_lt_of_place hfirst
    omega
  have hupc := upc_add_toNat row.length hle
  refine (performAll_row _ row hb hr hpos hle).trans
    ((performAll_read16Ops (by exact hb) rfl (by simpa only [hupc] using hfirst)
      (by simpa only [hupc] using hsecond)).trans ?_)
  cases dst <;> simp [State.writeRaw, be16, BitVec.ofNat_add, BitVec.add_assoc]

end

/-! ### The rows of the two sequences -/

/-- The requests of `RDCAL(i)` before its read, answered by `a 0` on. -/
def rdcalRow (p : Params) (i : Fin 4) (a : Nat → Byte) : List Sent :=
  [⟨.xfer (p.calCmd i).b0, a 0⟩, ⟨.xfer (p.calCmd i).b1, a 1⟩, ⟨fun _ => .mode .b, a 2⟩]

/-- The requests of `ACQ(k)` before its read, the wait before the mode switch. -/
def acqRow (p : Params) (k : Kind) (a : Nat → Byte) : List Sent :=
  [⟨fun _ => .mode .a, a 0⟩, ⟨.xfer p.resetSeq.b0, a 1⟩, ⟨.xfer p.resetSeq.b1, a 2⟩,
   ⟨.xfer p.resetSeq.b2, a 3⟩, ⟨.xfer (p.acqCmd k).b0, a 4⟩, ⟨.xfer (p.acqCmd k).b1, a 5⟩,
   ⟨fun _ => .wait p.convDelay, a 6⟩, ⟨fun _ => .mode .b, a 7⟩]

theorem rdcalOps_eq (p : Params) (i : Fin 4) (a : Nat → Byte) :
    rdcalOps p i = (rdcalRow p i a).map Sent.op ++ read16Ops (.low (.wd i)) := rfl

theorem acqOps_eq (p : Params) (k : Kind) (a : Nat → Byte) :
    acqOps p k = (acqRow p k a).map Sent.op ++ read16Ops (.low (rawRegOf k)) := rfl

/-- `ACQ(k)` at its place, answered (R83). -/
theorem performAll_acqOps {s : State} {k : Kind} {a : Nat → Byte} {rest : List Reply} (hb : s.busy = true)
    (hr : s.replies = Claim.answers a 10 ++ rest) (hpos : 0 < s.upc.toNat)
    (hread : (cmdOp s.cur, s.upc.toNat + 8, rawRegOf k) ∈ readPlaces) :
    s.performAll (acqOps s.par k) =
      { s.writeRaw (rawRegOf k) (a 8 ++ a 9) with
        hi := a 8, replies := rest, upc := s.upc + 10,
        trace := s.trace ++ Claim.acqEvents s.par (s.par.acqCmd k) a 0 } :=
  acqOps_eq s.par k a ▸ performAll_row_read (acqRow s.par k a) hb hr hpos hread

end Sys2Proof

namespace Sys2Proof.Proofs

open Sys2Proof.Machine

/-- Settles O30: the five micro-operations are three requests and a read whose place is that of `WD[i]`. -/
theorem rdcalReadsOneWord : Obligations.RdcalReadsOneWord := by
  intro s i a rest hb ho hk hr
  have hall : ∀ i : Fin 4, (CmdOp.init, 10 + 9 * i.val + 3, RawReg.wd i) ∈ readPlaces := by decide
  have hread : (cmdOp s.cur, s.upc.toNat + 3, RawReg.wd i) ∈ readPlaces := by rw [ho, hk]; exact hall i
  rw [exec_rdcal, rdcalOps_eq s.par i a]
  exact congrArg Host.Outcome.next (performAll_row_read (rdcalRow s.par i a) hb hr (by omega) hread)

/-- Settles O31: the ten micro-operations are eight requests and a read, at each of the three places of `ACQ`. -/
theorem acqMeasures : Obligations.AcqMeasures := by
  intro s a rest hb hr
  refine ⟨fun h => ?_, fun ⟨ho, hk⟩ => ?_⟩
  · have hall : ∀ x ∈ [(CmdOp.gett, 1), (.getp, 11)],
        0 < x.2 ∧ (x.1, x.2 + 8, RawReg.d2) ∈ readPlaces := by decide
    obtain ⟨hpos, hread⟩ := hall _ h
    exact congrArg Host.Outcome.next (performAll_acqOps (k := .temperature) hb hr hpos hread)
  · have hread : (cmdOp s.cur, s.upc.toNat + 8, RawReg.d1) ∈ readPlaces := by rw [ho, hk]; decide
    exact congrArg Host.Outcome.next
      (performAll_acqOps (k := .pressure) hb hr (by omega) hread)

end Sys2Proof.Proofs

/-! `DEC` at its place, the last of `INIT` (R88, R121). -/

namespace Sys2Proof

open Sys2Proof.Machine

/-- A command other than `SRESET` ends without a bracketed write: `BUSY` is all its completion clears (R118, R125). -/
theorem Machine.State.complete_last_other {s : State} (hb : s.busy = true)
    (hl : s.upc.toNat = lastIndex (cmdOp s.cur)) (ho : cmdOp s.cur ≠ .sreset) :
    s.complete = { s with busy := false } := by
  have hpos := lastIndex_pos (cmdOp s.cur)
  rw [State.complete_last hb hl,
    State.bracketWrites_other (fun hi => by omega) (fun hs => ho hs.1)]

end Sys2Proof

namespace Sys2Proof.Proofs

open Sys2Proof.Machine

/-- Settles O21: the extractions are the fields in arithmetic, and the completion of `DEC` ends `INIT`. -/
theorem decUnpacksTheCoefficients : Obligations.DecUnpacksTheCoefficients := by
  refine fun s unit h => ⟨s.cur, s.upc, ?_⟩
  obtain ⟨ho, hk⟩ := place_dec (h.place rfl)
  have hdone : s.decoded.complete = { s.decoded with busy := false } :=
    State.complete_last_other h.1 (show s.upc.toNat = lastIndex (cmdOp s.cur) by rw [ho, hk]; rfl)
      (show cmdOp s.cur ≠ .sreset by simp [ho])
  rw [exec_dec, hdone, State.decoded, decodeWords_eq_coefficients]

end Sys2Proof.Proofs

/-! The compensation engine against the formulas of R99 to R111: the model's shifts are the floor quotients, the two
readings of the correction branch agree, and the two computing micro-operations end their query. -/

namespace Sys2Proof

open Sys2Proof.Machine

/-! ### The formulas (R99 to R111) -/

section
variable {c : Coeffs} {d1 d2 : RawWord} {t p : Int}

theorem Machine.temperature_eq_tempFormula :
    temperature c (deltaT c d2) = Claim.tempFormula c d2 := rfl

theorem Machine.firstOrderPressure_eq_pcompFormula :
    firstOrderPressure c (deltaT c d2) d1 = Claim.pcompFormula c d1 d2 := rfl

/-- Where `dT` is zero every gain leaves the anchor of 200 (R101). -/
theorem Machine.temperature_zero : temperature c 0 = 200 := by simp [temperature]

theorem Machine.correctionBranch_eq_none : correctionBranch t = .none ↔ 200 ≤ t ∧ t ≤ 450 := by
  unfold correctionBranch; grind

/-- Both corrections, branch by branch (R106 to R109). -/
theorem Machine.corrections_eq_correctionFormula :
    (t2 c t, p2 c t p) = Claim.correctionFormula c.c6 t p := by
  unfold Claim.correctionFormula
  cases hb : correctionBranch t with
  | low =>
    rw [if_pos (correctionBranch_eq_low.mp hb)]
    simp only [p2, t2, hb, asr, sq]
    rfl
  | high =>
    have hlt := correctionBranch_eq_high.mp hb
    rw [if_neg (by omega), if_pos hlt]
    simp only [p2, t2, hb, asr, sq]
    rfl
  | none =>
    obtain ⟨hlo, hhi⟩ := correctionBranch_eq_none.mp hb
    rw [if_neg (by omega), if_neg (by omega)]
    simp only [p2, t2, hb]

/-- Between the two thresholds nothing is subtracted (R109). -/
theorem Machine.corrections_inside (hb : 200 ≤ t ∧ t ≤ 450) : t2 c t = 0 ∧ p2 c t p = 0 := by
  simp only [t2, p2, correctionBranch_eq_none.mpr hb, and_self]

end

/-! ### The last micro-operation of a query (R113, R114) -/

section
variable {s u : State}

theorem Machine.exec_cmpt_results (s : State) (unit : Bool) :
    ∃ t, exec (.cmpt unit) s = .next t ∧
      t.temp = temperature s.coeffs (deltaT s.coeffs s.d2) ∧ t.res = t.temp :=
  ⟨_, exec_cmpt unit s, by simp [State.withTemperature]⟩

/-- `CMPT` and `CMPP` end their query: to their own writes completion adds nothing but the end of `BUSY` (R118). -/
theorem Machine.Writes.complete_query {q : Place} (h : Writes s q u) (hb : s.busy = true)
    (hplace : (places (cmdOp s.cur))[s.upc.toNat]? = some q) (hq : q = .cmpt ∨ q = .cmpp) :
    u.complete = { u with busy := false } := by
  obtain ⟨hbusy, hcur, hupc⟩ := h.control
  have hlast : s.upc.toNat = lastIndex (cmdOp s.cur) := (place_last hplace).mpr (by tauto)
  have ho : cmdOp s.cur ≠ .sreset := by
    rcases hq with rfl | rfl
    · simp [(place_cmpt hplace).1]
    · simp [(place_cmpp hplace).1]
  exact State.complete_last_other (hbusy.trans hb) (by rw [hupc, hcur, hlast]) (hcur ▸ ho)

end

end Sys2Proof

namespace Sys2Proof.Proofs

open Sys2Proof.Machine

/-- Settles O22: the shifts are the floor quotients of the formula, and the completion of `CMPT` ends `GETT`. -/
theorem cmptComputesTheTemperature : Obligations.CmptComputesTheTemperature := by
  refine fun s unit h => ⟨s.cur, s.upc, ?_⟩
  rw [exec_cmpt, Writes.cmpt.complete_query h.1 (h.place rfl) (.inl rfl)]
  simp only [State.withTemperature, temperature_eq_tempFormula]

/-- Settles O23: the first-order values are those of the formulas, the corrections agree branch by branch, and the
completion of `CMPP` ends `GETP`. -/
theorem cmppComputesThePressure : Obligations.CmppComputesThePressure := by
  intro s unit h t p k
  refine ⟨s.cur, s.upc, ?_⟩
  obtain ⟨ht2, hp2⟩ : t2 s.coeffs t = k.1 ∧ p2 s.coeffs t p = k.2 :=
    Prod.mk.inj corrections_eq_correctionFormula
  rw [exec_cmpp, (Writes.cmpp unit).complete_query h.1 (h.place rfl) (.inr rfl)]
  simp only [State.withPressure, temperature_eq_tempFormula, firstOrderPressure_eq_pcompFormula, t, p] at ht2 hp2 ⊢
  rw [ht2, hp2]
  rfl

/-- Settles O24: `D2` = `UT1` is `dT` = 0. -/
theorem temperatureAnchor : Obligations.TemperatureAnchor := by
  intro s unit hd2
  obtain ⟨t, hexec, htemp, hres⟩ := exec_cmpt_results s unit
  have hdT : deltaT s.coeffs s.d2 = 0 := by unfold deltaT zext ut1; omega
  have h200 : t.temp = 200 := by rw [htemp, hdT, temperature_zero]
  exact ⟨t, hexec, h200, hres.trans h200⟩

/-- Settles O25: between the thresholds, both included, no branch of the correction is taken. -/
theorem noCorrectionInsideTheRange : Obligations.NoCorrectionInsideTheRange := by
  intro s unit
  obtain ⟨t, hexec, -, htcorr, -, hpcorr, -⟩ := exec_cmpp_results s unit
  refine ⟨t, hexec, fun hlo hhi => ?_⟩
  obtain ⟨ht2, hp2⟩ := corrections_inside (c := s.coeffs) (p := t.pcomp) ⟨hlo, hhi⟩
  rw [htcorr, hpcorr, ht2, hp2, sub_zero, sub_zero]
  exact ⟨rfl, rfl⟩

/-- Settles O27: both units write the same four output registers, and each its own of them to `RES`. -/
theorem mmhgIsLinearInPcomp : Obligations.MmhgIsLinearInPcomp := by
  intro s
  obtain ⟨t, hexec, htemp, htcorr, hpcomp, hpcorr, hres⟩ := exec_cmpp_results s .mmHg
  obtain ⟨t', hexec', htemp', htcorr', hpcomp', hpcorr', hres'⟩ := exec_cmpp_results s .millibar
  have htemps : t.temp = t'.temp := htemp.trans htemp'.symm
  have hpcomps : t.pcomp = t'.pcomp := hpcomp.trans hpcomp'.symm
  exact ⟨t, t', hexec, hexec', hres, hres', htemps, by rw [htcorr, htcorr', htemps], hpcomps,
    by rw [hpcorr, hpcorr', htemps, hpcomps]⟩

end Sys2Proof.Proofs

/-! A query, accepted and run to its end in `Ready` (R123, R124): the acceptance and the check, one or two acquisitions,
and the computation, whose results depend on the coefficients and the answers alone (R115, R127). -/

namespace Sys2Proof

open Sys2Proof.Machine

/-! ### Runs in parts -/

section
variable {s t : State} {w : BitVec 3} {k : Kind} {a : Nat → Byte} {rest : List Reply}

/-- A run goes on from where its first part ends. -/
theorem run_add {m : Nat} (n : Nat) (h : run m s = .next t) : run (m + n) s = run n t := by
  induction m generalizing s with
  | zero => rw [Nat.zero_add, Host.Outcome.next.inj h]
  | succ m ih =>
    rw [Nat.add_right_comm]
    simp only [run, Host.Core.run] at h ⊢
    cases hs : core.step s <;> simp only [hs, reduceCtorEq] at h ⊢
    exact ih h

/-- The entry a running command stands at is what its step executes, with no host input in between. -/
theorem step_of_slotAt {slot : Slot} (hb : s.busy = true) (hi : s.inputs = [])
    (hs : slotAt s.par s.cur s.upc = some slot) : step s = exec slot.instr s := by
  have hconsume : s.consumeInput = s := by simp [State.consumeInput, hi]
  rw [step_of_busy (by simp [hi]) hb, microOp_eq_some.mpr ⟨slot, hs, rfl⟩, hconsume]

theorem answers_add (a : Nat → Byte) (m n : Nat) :
    Claim.answers a (m + n) = Claim.answers a m ++ Claim.answers (fun j => a (m + j)) n := by
  simp [Claim.answers, List.range_add, Function.comp_def]

/-! ### The parts of a query -/

/-- The block once the command word `w` is accepted, with no host input behind it (R117). -/
def Machine.State.accepted (s : State) (w : BitVec 3) : State :=
  { s with inputs := [], cur := w, upc := 0, busy := true }

/-- The block once the query `w` is accepted and its check has passed (R120). -/
def Machine.State.checked (s : State) (w : BitVec 3) : State := { s.accepted w with upc := 1 }

/-- The block once `ACQ(k)` has run, answered by `a 0` on (R83). -/
def Machine.State.acquired (s : State) (k : Kind) (a : Nat → Byte) (rest : List Reply) : State :=
  { s.writeRaw (rawRegOf k) (a 8 ++ a 9) with
    hi := a 8, replies := rest, upc := s.upc + 10,
    trace := s.trace ++ Claim.acqEvents s.par (s.par.acqCmd k) a 0 }

theorem exec_chk_of_ready (h : s.lc = .ready) (unit chkKind : Bool) :
    exec (.chk unit chkKind) s = .next s.complete := by
  simp only [exec, execChk, h]

@[simp] theorem Machine.State.checked_coeffs : (s.checked w).coeffs = s.coeffs := rfl
@[simp] theorem Machine.State.checked_trace : (s.checked w).trace = s.trace := rfl
@[simp] theorem Machine.State.checked_par : (s.checked w).par = s.par := rfl

@[simp] theorem Machine.State.acquired_coeffs : (s.acquired k a rest).coeffs = s.coeffs := s.writeRaw_coeffs _ _
@[simp] theorem Machine.State.acquired_par : (s.acquired k a rest).par = s.par := s.writeRaw_par _ _
@[simp] theorem Machine.State.acquired_trace : (s.acquired k a rest).trace =
    s.trace ++ Claim.acqEvents s.par (s.par.acqCmd k) a 0 := rfl
@[simp] theorem Machine.State.acquired_d1 : (s.acquired .pressure a rest).d1 = a 8 ++ a 9 := rfl
@[simp] theorem Machine.State.acquired_d2 : (s.acquired .temperature a rest).d2 = a 8 ++ a 9 := rfl
@[simp] theorem Machine.State.acquired_temperature_d1 : (s.acquired .temperature a rest).d1 = s.d1 := rfl

/-- The block once a query has computed its results (R113, R114). -/
def Machine.State.ended (s : State) : State := { s with busy := false }

@[simp] theorem Machine.State.ended_trace : s.ended.trace = s.trace := rfl

/-- In `Ready` the first two steps of a query are its acceptance and its check. -/
theorem run_two_eq_checked (hw : isQuery w) (hb : s.busy = false) (hi : s.inputs = [.command w])
    (hl : s.lc = .ready) : run 2 s = .next (s.checked w) := by
  obtain ⟨hlast, hbracket⟩ : 0 ≠ lastIndex (cmdOp w) ∧ ¬(cmdOp w = .init ∧ 0 = 0) :=
    place_inner (place_chk.mpr ⟨hw, rfl⟩) (by decide)
  have hpass : (s.accepted w).complete = s.checked w :=
    State.complete_inner (s := s.accepted w) rfl hlast hbracket
  have hcheck : step (s.accepted w) = .next (s.checked w) := by
    rw [step_of_slotAt (s := s.accepted w) rfl rfl (slotAt_chk hw rfl), ← hpass]
    exact exec_chk_of_ready (s := s.accepted w) hl _ _
  exact (run_succ 1 (step_of_command hi hb)).trans (run_succ 0 hcheck)

/-- The ten steps of an acquisition that is answered. -/
theorem run_ten_eq_acquired (h : Ahead s (acqSlots s.par k)) (hr : s.replies = Claim.answers a 10 ++ rest)
    (hpos : 0 < s.upc.toNat) (hread : (cmdOp s.cur, s.upc.toNat + 8, rawRegOf k) ∈ readPlaces) :
    run 10 s = .next (s.acquired k a rest) :=
  (run_eq_performAll (performs_acq s.par k) h).trans
    (congrArg Host.Outcome.next (performAll_acqOps h.busy hr hpos hread))

/-- The last step of `GETT` (R113, R123). -/
theorem step_cmpt (hb : s.busy = true) (hi : s.inputs = []) (ho : cmdOp s.cur = .gett)
    (hk : s.upc.toNat = 11) : step s = .next s.withTemperature.ended := by
  have hplace : (places (cmdOp s.cur))[s.upc.toNat]? = some .cmpt := by rw [ho, hk]; rfl
  rw [step_of_slotAt hb hi (slotAt_cmpt ho hk), Slot.instr, exec_cmpt,
    Writes.cmpt.complete_query hb hplace (.inl rfl)]
  rfl

/-- The last step of `GETP` (R114, R124). -/
theorem step_cmpp (hb : s.busy = true) (hi : s.inputs = []) (ho : cmdOp s.cur = .getp)
    (hk : s.upc.toNat = 21) :
    step s = .next (s.withPressure (unitOf (cmdUnit s.cur))).ended := by
  have hplace : (places (cmdOp s.cur))[s.upc.toNat]? = some .cmpp := by rw [ho, hk]; rfl
  rw [step_of_slotAt hb hi (slotAt_cmpp ho hk), Slot.instr, exec_cmpp,
    (Writes.cmpp _).complete_query hb hplace (.inr rfl)]
  rfl

/-! ### The two queries -/

/-- The block at the end of `GETT`, answered by `a 0` on (R123). -/
def Machine.State.afterGett (s : State) (w : BitVec 3) (a : Nat → Byte) (rest : List Reply) : State :=
  ((s.checked w).acquired .temperature a rest).withTemperature.ended

/-- `GETT` in `Ready`, accepted and run to its end. -/
theorem run_gett (ho : cmdOp w = .gett) (hb : s.busy = false) (hi : s.inputs = [.command w])
    (hl : s.lc = .ready) (hr : s.replies = Claim.answers a 10 ++ rest) :
    run 13 s = .next (s.afterGett w a rest) := by
  have hplace : (cmdOp w, 1) ∈ [(CmdOp.gett, 1), (.getp, 11)] := by rw [ho]; decide
  have hread : (cmdOp w, 9, RawReg.d2) ∈ readPlaces := by rw [ho]; decide
  have hacq : run 10 (s.checked w) = .next ((s.checked w).acquired .temperature a rest) :=
    run_ten_eq_acquired ⟨rfl, rfl, acqT_entries hplace⟩ hr Nat.one_pos hread
  have hlast : step ((s.checked w).acquired .temperature a rest) = .next (s.afterGett w a rest) :=
    step_cmpt (s := (s.checked w).acquired .temperature a rest) rfl rfl ho rfl
  rw [run_add 11 (run_two_eq_checked (.inl ho) hb hi hl), run_add 1 hacq]
  exact run_succ 0 hlast

/-- The block once both acquisitions of `GETP` have run: the pressure first, then the temperature (R124). -/
def Machine.State.acquiredBoth (s : State) (a : Nat → Byte) (rest : List Reply) : State :=
  (s.acquired .pressure a (Claim.answers (fun j => a (10 + j)) 10 ++ rest)).acquired .temperature
    (fun j => a (10 + j)) rest

/-- The block at the end of `GETP`, answered by `a 0` on (R124). -/
def Machine.State.afterGetp (s : State) (w : BitVec 3) (a : Nat → Byte) (rest : List Reply) : State :=
  (((s.checked w).acquiredBoth a rest).withPressure (unitOf (cmdUnit w))).ended

/-- `GETP` in `Ready`, accepted and run to its end. -/
theorem run_getp (ho : cmdOp w = .getp) (hb : s.busy = false) (hi : s.inputs = [.command w])
    (hl : s.lc = .ready) (hr : s.replies = Claim.answers a 20 ++ rest) :
    run 23 s = .next (s.afterGetp w a rest) := by
  have hplace : (cmdOp w, 11) ∈ [(CmdOp.gett, 1), (.getp, 11)] := by rw [ho]; decide
  have hreadP : (cmdOp w, 9, RawReg.d1) ∈ readPlaces := by rw [ho]; decide
  have hreadT : (cmdOp w, 19, RawReg.d2) ∈ readPlaces := by rw [ho]; decide
  rw [answers_add a 10 10, List.append_assoc] at hr
  have hacqP : run 10 (s.checked w) = .next ((s.checked w).acquired .pressure a _) :=
    run_ten_eq_acquired ⟨rfl, rfl, acqP_entries ho⟩ hr Nat.one_pos hreadP
  have hacqT : run 10 ((s.checked w).acquired .pressure a _) = .next ((s.checked w).acquiredBoth a rest) :=
    run_ten_eq_acquired ⟨rfl, rfl, acqT_entries hplace⟩ rfl (show 0 < 11 by decide) hreadT
  have hlast : step ((s.checked w).acquiredBoth a rest) = .next (s.afterGetp w a rest) :=
    step_cmpp (s := (s.checked w).acquiredBoth a rest) rfl rfl ho rfl
  rw [run_add 21 (run_two_eq_checked (.inr ho) hb hi hl), run_add 11 hacqP, run_add 1 hacqT]
  exact run_succ 0 hlast

/-! ### What a query leaves (R115) -/

theorem Machine.State.afterGett_trace : (s.afterGett w a rest).trace =
    s.trace ++ Claim.acqEvents s.par s.par.acqT a 0 := by
  simp [State.afterGett, State.withTemperature, Params.acqCmd]

theorem Machine.State.afterGetp_trace : (s.afterGetp w a rest).trace =
    s.trace ++ (Claim.acqEvents s.par s.par.acqP a 0 ++
      Claim.acqEvents s.par s.par.acqT (fun j => a (10 + j)) 0) := by
  simp [State.afterGetp, State.withPressure, State.acquiredBoth, Params.acqCmd]

/-- `CMPT` reads the coefficients and `D2`, and no other register. -/
theorem Machine.State.withTemperature_congr (hc : s.coeffs = t.coeffs) (h2 : s.d2 = t.d2) :
    s.withTemperature.temp = t.withTemperature.temp ∧ s.withTemperature.res = t.withTemperature.res := by
  simp only [State.withTemperature, hc, h2, and_self]

/-- `CMPP` reads the coefficients and the two raw values, and no other register. -/
theorem Machine.State.withPressure_results_congr (hc : s.coeffs = t.coeffs) (h1 : s.d1 = t.d1)
    (h2 : s.d2 = t.d2) (u : PressureUnit) : (s.withPressure u).results = (t.withPressure u).results := by
  simp only [State.results, State.withPressure, hc, h1, h2]

/-- `GETT` has filled `D2` with its own bytes before it computes (R127). -/
theorem Machine.State.afterGett_congr (hc : s.coeffs = t.coeffs) :
    (s.afterGett w a rest).temp = (t.afterGett w a rest).temp ∧
    (s.afterGett w a rest).res = (t.afterGett w a rest).res :=
  State.withTemperature_congr (by simpa using hc) (by simp)

/-- `GETP` has filled `D1` and `D2` with its own bytes before it computes (R127). -/
theorem Machine.State.afterGetp_results_congr (hc : s.coeffs = t.coeffs) :
    (s.afterGetp w a rest).results = (t.afterGetp w a rest).results :=
  State.withPressure_results_congr (by simpa [State.acquiredBoth] using hc) (by simp [State.acquiredBoth])
    (by simp [State.acquiredBoth]) _

end

end Sys2Proof

namespace Sys2Proof.Proofs

open Sys2Proof.Machine

/-- Settles O40: both blocks reach the computation with the same coefficients and with raw registers that hold this
query's bytes, and the computation reads nothing else. -/
theorem noCachingAcrossQueries : Obligations.NoCachingAcrossQueries := by
  intro s s' w a n hw hn hb hb' hi hi' hl hl' hcoeffs hpar hr hr'
  rcases hw with ho | ho <;> rw [ho] at hn ⊢
  · obtain rfl : n = 13 := hn
    rw [answers_add a 10 10] at hr hr'
    obtain ⟨htemp, hres⟩ := State.afterGett_congr hcoeffs
    refine ⟨_, _, _, run_gett ho hb hi hl hr, run_gett ho hb' hi' hl' hr', hres, htemp, rfl, rfl,
      (absurd · (by decide)), State.afterGett_trace, ?_⟩
    rw [State.afterGett_trace, hpar]
  · obtain rfl : n = 23 := hn
    rw [← List.append_nil (Claim.answers a 20)] at hr hr'
    have hresults := State.afterGetp_results_congr (w := w) (a := a) (rest := []) hcoeffs
    simp only [State.results, Prod.mk.injEq] at hresults
    obtain ⟨htemp, htcorr, hpcomp, hpcorr, hres, hrkind⟩ := hresults
    refine ⟨_, _, _, run_getp ho hb hi hl hr, run_getp ho hb' hi' hl' hr', hres, htemp, hrkind, rfl,
      fun _ => ⟨htcorr, hpcomp, hpcorr⟩, State.afterGetp_trace, ?_⟩
    rw [State.afterGetp_trace, hpar]

end Sys2Proof.Proofs

/-! A whole command, accepted and run to its end (R121 to R124): `INIT` as its two bracketing micro-operations around
five reset sequences and four word reads, `SRESET` as one reset sequence, and the queries by the runs above. -/

namespace Sys2Proof

open Sys2Proof.Machine Sys2Proof.Claim

/-! ### The command words (R56, R57) -/

theorem cmdOp_command (unit : Bool) (o : CmdOp) : cmdOp (bit unit ++ opBits o) = o := by
  cases o <;> cases unit <;> rfl

theorem cmdUnit_command (unit : Bool) (o : CmdOp) : cmdUnit (bit unit ++ opBits o) = unit := by
  cases o <;> cases unit <;> rfl

section
variable {s t u : State} {w : BitVec 3} {i : Fin 4} {a : Nat → Byte} {k : Nat} {rest : List Reply}

/-! ### Runs and answers in parts -/

/-- A run takes one step more. -/
theorem run_snoc {n : Nat} (h : run n s = .next t) (hs : step t = .next u) : run (n + 1) s = .next u :=
  (run_add 1 h).trans (run_succ 0 hs)

/-- The `n` answers from `a k` on (log 3). -/
def answersFrom (a : Nat → Byte) (k n : Nat) : List Reply := answers (fun j => a (k + j)) n

theorem answers_eq_answersFrom (a : Nat → Byte) (n : Nat) : answers a n = answersFrom a 0 n := by
  simp [answersFrom]

theorem answersFrom_add (a : Nat → Byte) (k m n : Nat) :
    answersFrom a k (m + n) = answersFrom a k m ++ answersFrom a (k + m) n := by
  simp only [answersFrom, answers_add, Nat.add_assoc]

/-! ### A reset sequence inside a command (R81) -/

/-- The block once a reset sequence has run inside a command, answered by `a k` on (R81). -/
def Machine.State.resetSent (s : State) (a : Nat → Byte) (k : Nat) (rest : List Reply) : State :=
  { s with replies := rest, upc := s.upc + 4,
           trace := s.trace ++ resetEvents s.par (a (k + 1)) (a (k + 2)) (a (k + 3)) }

/-- The requests of a reset sequence, answered by `a k` on. -/
def resetRow (p : Params) (a : Nat → Byte) (k : Nat) : List Sent :=
  [⟨fun _ => .mode .a, a k⟩, ⟨.xfer p.resetSeq.b0, a (k + 1)⟩, ⟨.xfer p.resetSeq.b1, a (k + 2)⟩,
   ⟨.xfer p.resetSeq.b2, a (k + 3)⟩]

theorem performs_reset (p : Params) :
    List.Forall₂ Performs (resetSlots p) (modeOp .a :: patternOps p) :=
  .cons .modeA (performs_pattern p)

/-- The four steps of a reset sequence that is answered, inside a command. -/
theorem run_four_eq_resetSent (h : Ahead s (resetSlots s.par)) (hr : s.replies = answersFrom a k 4 ++ rest)
    (hpos : 0 < s.upc.toNat) (hle : s.upc.toNat + 4 ≤ lastIndex (cmdOp s.cur)) :
    run 4 s = .next (s.resetSent a k rest) :=
  (run_eq_performAll (performs_reset s.par) h).trans
    (congrArg Host.Outcome.next (performAll_row [] (resetRow s.par a k) h.busy hr hpos hle))

/-! ### A calibration word read after its reset sequence (R82, R84) -/

/-- The block once a reset sequence and `RDCAL(i)` have run, answered by `a k` on (R81, R82). -/
def Machine.State.wordRead (s : State) (i : Fin 4) (a : Nat → Byte) (k : Nat) (rest : List Reply) : State :=
  { s.writeRaw (.wd i) (a (k + 7) ++ a (k + 8)) with
    hi := a (k + 7), replies := rest, upc := s.upc + 9,
    trace := s.trace ++ (resetEvents s.par (a (k + 1)) (a (k + 2)) (a (k + 3)) ++
      rdcalEvents s.par (s.par.calCmd i) (a (k + 4)) (a (k + 5)) (a (k + 7)) (a (k + 8))) }

theorem wordRead_entries (h : cmdOp w = .init) (p : Params) (i : Fin 4) :
    resetSlots p ++ rdcalSlots p i <+: (program p w).drop (6 + 9 * i.val) := by
  rw [program_init h]
  fin_cases i <;> exact ⟨_, rfl⟩

theorem performs_wordRead (p : Params) (i : Fin 4) :
    List.Forall₂ Performs (resetSlots p ++ rdcalSlots p i) (modeOp .a :: patternOps p ++ rdcalOps p i) :=
  .cons .modeA <| .cons (.tx _) <| .cons (.tx _) <| .cons (.tx _) <| performs_rdcal p i

/-- Nine steps read one calibration word of `INIT`, and the run goes on with the answers left (R82, R84). -/
theorem run_wordRead (n : Nat) (hb : s.busy = true) (hi : s.inputs = []) (ho : cmdOp s.cur = .init)
    (hk : s.upc.toNat = 6 + 9 * i.val) (hr : s.replies = answersFrom a k (9 + n) ++ rest) :
    run (9 + n) s = run n (s.wordRead i a k (answersFrom a (k + 9) n ++ rest)) := by
  have hall : ∀ i : Fin 4, (CmdOp.init, 6 + 9 * i.val + 7, RawReg.wd i) ∈ readPlaces := by decide
  have hread : (cmdOp s.cur, s.upc.toNat + 7, RawReg.wd i) ∈ readPlaces := by rw [ho, hk]; exact hall i
  have hahead : Ahead s (resetSlots s.par ++ rdcalSlots s.par i) :=
    ⟨hb, hi, hk ▸ wordRead_entries ho s.par i⟩
  rw [answersFrom_add, List.append_assoc] at hr
  exact run_add n ((run_eq_performAll (performs_wordRead s.par i) hahead).trans (congrArg Host.Outcome.next
    (performAll_row_read (resetRow s.par a k ++ rdcalRow s.par i fun j => a (k + 4 + j)) hb hr (by omega) hread)))

/-! ### `INIT` (R121) -/

/-- The block once `INIT` is accepted and its `CFG` has run, which clears `LC`. -/
def Machine.State.configured (s : State) (w : BitVec 3) (rest : List Reply) : State :=
  { s.accepted w with
    replies := rest, trace := s.trace ++ [.cfg], lc := .uninitialized, upc := 1 }

/-- The block once the `AUXON` of `INIT` has run too. -/
def Machine.State.initBegun (s : State) (w : BitVec 3) (rest : List Reply) : State :=
  { s.configured w rest with trace := s.trace ++ [.cfg] ++ [.auxOn], auxen := true, upc := 2 }

theorem step_accepted_cfg (ho : cmdOp w = .init) (hr : s.replies = answersFrom a 0 1 ++ rest) :
    step (s.accepted w) = .next (s.configured w rest) := by
  have hslot : slotAt s.par w 0 = some (.op .cfg) := by rw [slotAt, program_init ho]; rfl
  have hstands : StandsAt (s.accepted w) .cfg := ⟨rfl, microOp_eq_some.mpr ⟨_, hslot, rfl⟩⟩
  have hanswered : Answered (s.accepted w) (a 0) { s.accepted w with replies := rest } :=
    .inl ⟨rest, hr, rfl⟩
  exact (step_of_slotAt (s := s.accepted w) rfl rfl hslot).trans
    (Proofs.cfgConfiguresTheTransport _ _ _ hstands hanswered)

theorem step_configured_auxon (ho : cmdOp w = .init) :
    step (s.configured w rest) = .next (s.initBegun w rest) := by
  have hslot : slotAt s.par w 1 = some (.op .auxon) := by rw [slotAt, program_init ho]; rfl
  have hstands : StandsAt (s.configured w rest) .auxon := ⟨rfl, microOp_eq_some.mpr ⟨_, hslot, rfl⟩⟩
  exact (step_of_slotAt (s := s.configured w rest) rfl rfl hslot).trans
    (Proofs.auxonEnablesTheClock _ hstands)

theorem run_three_eq_initBegun (ho : cmdOp w = .init) (hb : s.busy = false) (hi : s.inputs = [.command w])
    (hr : s.replies = answersFrom a 0 1 ++ rest) : run 3 s = .next (s.initBegun w rest) :=
  run_snoc (run_snoc (run_succ 0 (step_of_command hi hb)) (step_accepted_cfg ho hr))
    (step_configured_auxon ho)

/-- The block once `INIT` has sent its first reset sequence and read its four calibration words, answered by `a 1`
on. -/
def Machine.State.wordsRead (s : State) (a : Nat → Byte) (rest : List Reply) : State :=
  s.resetSent a 1 (answersFrom a 5 36 ++ rest)
    |>.wordRead 0 a 5 (answersFrom a 14 27 ++ rest)
    |>.wordRead 1 a 14 (answersFrom a 23 18 ++ rest)
    |>.wordRead 2 a 23 (answersFrom a 32 9 ++ rest)
    |>.wordRead 3 a 32 rest

/-- The micro-operations of `INIT` between `AUXON` and `DEC`. -/
theorem run_forty_eq_wordsRead (ho : cmdOp w = .init) :
    run 40 (s.initBegun w (answersFrom a 1 40 ++ rest)) =
      .next ((s.initBegun w (answersFrom a 1 40 ++ rest)).wordsRead a rest) := by
  have hentries : resetSlots s.par <+: (program s.par w).drop 2 := by
    rw [program_init ho]; exact ⟨_, rfl⟩
  have hreplies : answersFrom a 1 40 ++ rest = answersFrom a 1 4 ++ (answersFrom a 5 36 ++ rest) := by
    rw [answersFrom_add a 1 4 36, List.append_assoc]
  have hreset := run_four_eq_resetSent (s := s.initBegun w _) ⟨rfl, rfl, hentries⟩ hreplies
    (show 0 < 2 by decide) (show 2 + 4 ≤ lastIndex (cmdOp w) by rw [ho]; decide)
  exact (run_add 36 hreset).trans <|
    (run_wordRead (i := 0) 27 (by rfl) (by rfl) (by exact ho) (by rfl) (by rfl)).trans <|
    (run_wordRead (i := 1) 18 (by rfl) (by rfl) (by exact ho) (by rfl) (by rfl)).trans <|
    (run_wordRead (i := 2) 9 (by rfl) (by rfl) (by exact ho) (by rfl) (by rfl)).trans <|
    run_wordRead (i := 3) 0 (by rfl) (by rfl) (by exact ho) (by rfl) (by rfl)

/-- The last step of `INIT` (R88, R121). -/
theorem step_dec (hb : s.busy = true) (hi : s.inputs = []) (ho : cmdOp s.cur = .init)
    (hk : s.upc.toNat = 42) : step s = .next s.decoded.ended := by
  have hdone : s.decoded.complete = s.decoded.ended :=
    State.complete_last_other hb (show s.upc.toNat = lastIndex (cmdOp s.cur) by rw [ho, hk]; rfl)
      (show cmdOp s.cur ≠ .sreset by simp [ho])
  rw [step_of_slotAt hb hi (slotAt_dec ho hk), Slot.instr, exec_dec, hdone]

/-- The block at the end of `INIT`, answered by `a 0` on (R121). -/
def Machine.State.afterInit (s : State) (w : BitVec 3) (a : Nat → Byte) (rest : List Reply) : State :=
  ((s.initBegun w (answersFrom a 1 40 ++ rest)).wordsRead a rest).decoded.ended

/-- `INIT`, accepted and run to its end. -/
theorem run_init (ho : cmdOp w = .init) (hb : s.busy = false) (hi : s.inputs = [.command w])
    (hr : s.replies = answers a 41 ++ rest) : run 44 s = .next (s.afterInit w a rest) := by
  rw [answers_eq_answersFrom, answersFrom_add a 0 1 40, List.append_assoc] at hr
  have hwords := (run_add 40 (run_three_eq_initBegun ho hb hi hr)).trans (run_forty_eq_wordsRead ho)
  exact run_snoc hwords (step_dec rfl rfl ho rfl)

theorem Machine.State.afterInit_trace : (s.afterInit w a rest).trace = s.trace ++ initEvents s.par a := by
  simp [State.afterInit, State.decoded, State.wordsRead, State.wordRead, State.resetSent, State.initBegun,
    State.configured, State.accepted, initEvents, Params.calCmd]

/-! ### `SRESET` (R122) -/

/-- The block at the end of `SRESET`, answered by `a 0` on (R122). -/
def Machine.State.afterSreset (s : State) (w : BitVec 3) (a : Nat → Byte) (rest : List Reply) : State :=
  { s.accepted w with
    err := .none, busy := false, upc := 3, replies := rest,
    trace := s.trace ++ resetEvents s.par (a 1) (a 2) (a 3) }

/-- The block once the mode switch of `SRESET` has run. -/
def Machine.State.sresetBegun (s : State) (w : BitVec 3) (rest : List Reply) : State :=
  { s.accepted w with replies := rest, trace := s.trace ++ [.mode .a], upc := 1 }

/-- The row of `SRESET`, answered: the mode switch counts on, and the last byte of the pattern ends the command. -/
theorem performAll_sreset (ho : cmdOp w = .sreset) (hr : s.replies = answers a 4 ++ rest) :
    (s.accepted w).performAll (modeOp .a :: patternOps s.par) = s.afterSreset w a rest := by
  have hmode : modeOp .a (s.accepted w) =
      some ({ s.accepted w with replies := answersFrom a 1 3 ++ rest }.emit (.mode .a)) :=
    Sent.op_answered (x := ⟨fun _ => .mode .a, a 0⟩) hr
  have hfirst : (places (cmdOp w))[0]? = some .modeA := by rw [ho]; rfl
  have hbegun : ({ s.accepted w with replies := answersFrom a 1 3 ++ rest }.emit (.mode .a)).complete =
      s.sresetBegun w (answersFrom a 1 3 ++ rest) :=
    State.complete_emit_inner _ rfl (place_inner hfirst (by decide))
  have hplace : (cmdOp w, 1) ∈ patternPlaces := by rw [ho]; decide
  rw [State.performAll_some _ hmode, hbegun]
  refine (performAll_patternOps (s := s.sresetBegun w _) rfl rfl hplace).trans
    ((State.complete_sreset_last rfl ho rfl).trans ?_)
  simp [State.sresetBegun, State.afterSreset, State.accepted, resetEvents]

/-- `SRESET`, accepted and run to its end. -/
theorem run_sreset (ho : cmdOp w = .sreset) (hb : s.busy = false) (hi : s.inputs = [.command w])
    (hr : s.replies = answers a 4 ++ rest) : run 5 s = .next (s.afterSreset w a rest) := by
  have hentries : resetSlots s.par <+: program s.par w := by rw [program_sreset ho]; exact ⟨[], rfl⟩
  have hrow : run 4 (s.accepted w) = .next ((s.accepted w).performAll (modeOp .a :: patternOps s.par)) :=
    run_eq_performAll (performs_reset s.par) ⟨rfl, rfl, hentries⟩
  exact (run_succ 4 (step_of_command hi hb)).trans (hrow.trans (congrArg _ (performAll_sreset ho hr)))

/-! ### The queries (R120, R123, R124, R131) -/

theorem acqEvents_shift (p : Params) (c : Pattern2) (a : Nat → Byte) (k : Nat) :
    acqEvents p c (fun j => a (k + j)) 0 = acqEvents p c a k := by
  simp [acqEvents]

/-- The block before the last step of `GETT` (R123). -/
theorem Machine.State.checked_acquired (s : State) (w : BitVec 3) (a : Nat → Byte) (rest : List Reply) :
    (s.checked w).acquired .temperature a rest =
      { s with d2 := a 8 ++ a 9, hi := a 8, trace := s.trace ++ acqEvents s.par s.par.acqT a 0,
               inputs := [], replies := rest, busy := true, cur := w, upc := 11 } := rfl

theorem Machine.State.withTemperature_eq_formula (s : State) : s.withTemperature =
    { s with temp := tempFormula s.coeffs s.d2, res := tempFormula s.coeffs s.d2, rkind := .temperature,
             err := .none } := rfl

/-- What `CMPP` writes, by the formulas of R99 to R111 on the registers it reads and the unit bit. -/
theorem Machine.State.withPressure_eq_formulas {c : Coeffs} {d1 d2 : RawWord} (hc : s.coeffs = c)
    (h1 : s.d1 = d1) (h2 : s.d2 = d2) (unit : Bool) :
    let t := tempFormula c d2
    let p := pcompFormula c d1 d2
    let k := correctionFormula c.c6 t p
    s.withPressure (unitOf unit) =
      { s with temp := t, tcorr := t - k.1, pcomp := p, pcorr := p - k.2,
               res := if unit then p * 75006 else p - k.2,
               rkind := if unit then .pressureMmhg else .pressureMbar, err := .none } := by
  intro t p k
  subst hc h1 h2
  obtain ⟨ht2, hp2⟩ : t2 s.coeffs t = k.1 ∧ p2 s.coeffs t p = k.2 :=
    Prod.mk.inj corrections_eq_correctionFormula
  rw [← ht2, ← hp2]
  cases unit <;>
    simp [State.withPressure, temperature_eq_tempFormula, firstOrderPressure_eq_pcompFormula, unitOf,
      millionthsMmhg, t, p]

/-- The block before the last step of `GETP` (R124). -/
theorem Machine.State.checked_acquiredBoth (s : State) (w : BitVec 3) (a : Nat → Byte) (rest : List Reply) :
    (s.checked w).acquiredBoth a rest =
      { s with d1 := a 8 ++ a 9, d2 := a 18 ++ a 19, hi := a 18,
               trace := s.trace ++ acqEvents s.par s.par.acqP a 0 ++ acqEvents s.par s.par.acqT a 10,
               inputs := [], replies := rest, busy := true, cur := w, upc := 21 } := by
  simp [State.acquiredBoth, State.acquired, State.checked, State.accepted, State.writeRaw, rawRegOf, Params.acqCmd,
    acqEvents_shift]

theorem exec_chk_of_uninitialized (h : s.lc = .uninitialized) (unit chkKind : Bool) :
    exec (.chk unit chkKind) s = .next s.raiseUninit := by
  simp only [exec, execChk, h]

/-- In `Uninitialized` a query is accepted and fails its check (R131). -/
theorem run_query_uninitialized (hw : isQuery w) (hb : s.busy = false) (hi : s.inputs = [.command w])
    (hl : s.lc = .uninitialized) : run 2 s = .next (s.accepted w).raiseUninit := by
  have hcheck : step (s.accepted w) = .next (s.accepted w).raiseUninit :=
    (step_of_slotAt (s := s.accepted w) rfl rfl (slotAt_chk hw rfl)).trans
      (exec_chk_of_uninitialized (s := s.accepted w) hl _ _)
  exact run_snoc (run_succ 0 (step_of_command hi hb)) hcheck

end

end Sys2Proof

namespace Sys2Proof.Proofs

open Sys2Proof.Machine Sys2Proof.Claim

/-- Settles O35: the two micro-operations that begin `INIT`, the reset sequence and the four word reads, and `DEC` on
the words read. -/
theorem initRunsToReady : Obligations.InitRunsToReady := by
  intro s unit a rest hb hi hr words
  refine ⟨bit unit ++ opBits .init, 42, (run_init (cmdOp_command unit .init) hb hi hr).trans ?_⟩
  rw [← State.afterInit_trace (w := bit unit ++ opBits .init) (rest := rest), ← decodeWords_eq_coefficients, hb]
  rfl

/-- Settles O36: the run of `SRESET`, which has no check and writes `ERR` alone. -/
theorem sresetRuns : Obligations.SresetRuns := by
  intro s unit a rest hb hi hr
  refine ⟨bit unit ++ opBits .sreset, 3, (run_sreset (cmdOp_command unit .sreset) hb hi hr).trans ?_⟩
  rw [hb]
  rfl

/-- Settles O37: the run of `GETT`, whose temperature is that of the formula. -/
theorem gettRuns : Obligations.GettRuns := by
  intro s unit a rest hb hi hl hr t
  have hrun := run_gett (cmdOp_command unit .gett) hb hi hl hr
  rw [State.afterGett, State.checked_acquired, State.withTemperature_eq_formula, State.ended] at hrun
  refine ⟨bit unit ++ opBits .gett, 11, hrun.trans ?_⟩
  simp only [hb, t]

/-- Settles O38: the run of `GETP`, whose results are those of the formulas at the raw values just acquired. -/
theorem getpRuns : Obligations.GetpRuns := by
  intro s unit a rest hb hi hl hr t p k
  have hrun := run_getp (cmdOp_command unit .getp) hb hi hl hr
  rw [State.afterGetp, cmdUnit_command, State.checked_acquiredBoth, State.withPressure_eq_formulas rfl rfl rfl,
    State.ended] at hrun
  refine ⟨bit unit ++ opBits .getp, 21, hrun.trans ?_⟩
  simp only [hb, t, p, k]

/-- Settles O39: the check of the query fails before anything is requested. -/
theorem queryBeforeInitFails : Obligations.QueryBeforeInitFails := by
  intro s w hb hi hw hl
  refine ⟨w, 0, (run_query_uninitialized hw hb hi hl).trans ?_⟩
  rw [hb]
  rfl

end Sys2Proof.Proofs

/-! One step around the decoded instruction (R117, R118, R133), and what the host presents to a busy block. -/

namespace Sys2Proof

open Sys2Proof.Machine Sys2Proof.Claim

section
variable {s t : State} {w : BitVec 3} {i : Instr} {rest : List HostInput}

/-! ### The host's input (log 5) -/

theorem Machine.State.consumeInput_nil (h : s.inputs = []) : s.consumeInput = s := by
  simp [State.consumeInput, h]

theorem Machine.State.consumeInput_idle (h : s.inputs = .idle :: rest) :
    s.consumeInput = { s with inputs := rest } := by
  simp [State.consumeInput, h]

/-- A command presented to a busy block stays presented (R117). -/
theorem Machine.State.consumeInput_command (hb : s.busy = true) (h : s.inputs = .command w :: rest) :
    s.consumeInput = s := by
  simp [State.consumeInput, h, hb]

/-- A running command executes what its control state decodes to (R118). -/
theorem step_of_decode (hb : s.busy = true) (hr : s.inputs.head? ≠ some .reset)
    (hd : decode s.par (.u (s.cur ++ s.upc)) = .ok i) : step s = exec i s.consumeInput := by
  have hcontrol : decode s.par (.u (s.cur ++ s.upc)) = _ := decodeU_controlWord s.par s.cur s.upc
  rw [step_of_busy hr hb]
  cases hm : microOp s.par s.cur s.upc <;> simp only [hm] at hcontrol <;> rw [hcontrol] at hd
  case none => cases hd
  case some j => rw [Except.ok.inj hd]

/-- A command word executed at an idle block is accepted (R57, R117). -/
theorem exec_decodeH_idle (w : BitVec 3) (hb : s.busy = false) :
    exec (decodeH w) s = .next { s with cur := w, upc := 0, busy := true } := by
  rw [exec_decodeH, State.accept_idle w hb]

end

/-! ### A micro-operation does not look at the host's input (R117) -/

/-- The block with another list of host inputs. -/
def Machine.State.withInputs (s : State) (l : List HostInput) : State := { s with inputs := l }

/-- `m` neither reads nor writes the host's inputs. -/
def IgnoresInputs (m : State → Option State) : Prop :=
  ∀ (s : State) (l : List HostInput), m (s.withInputs l) = (m s).map fun t => t.withInputs l

section
variable (s : State) (l : List HostInput)

@[simp] theorem Machine.State.withInputs_par : (s.withInputs l).par = s.par := rfl
@[simp] theorem Machine.State.withInputs_lc : (s.withInputs l).lc = s.lc := rfl
@[simp] theorem Machine.State.withInputs_busy : (s.withInputs l).busy = s.busy := rfl
@[simp] theorem Machine.State.withInputs_cur : (s.withInputs l).cur = s.cur := rfl
@[simp] theorem Machine.State.withInputs_upc : (s.withInputs l).upc = s.upc := rfl
@[simp] theorem Machine.State.withInputs_replies : (s.withInputs l).replies = s.replies := rfl
@[simp] theorem Machine.State.withInputs_drawn : (s.withInputs l).drawn = s.drawn := rfl

theorem Machine.State.hangs_withInputs : (s.withInputs l).hangs = s.hangs := rfl

theorem Machine.State.answer_withInputs : (s.withInputs l).answer = s.answer := rfl

theorem Machine.State.rxTarget_withInputs : (s.withInputs l).rxTarget = s.rxTarget := rfl

theorem Machine.State.answered_withInputs : (s.withInputs l).answered = s.answered.withInputs l := by
  simp only [State.answered, State.withInputs_replies]
  split <;> rfl

theorem Machine.State.receive_withInputs (target : RxTarget) (b : Byte) :
    (s.withInputs l).receive target b = (s.receive target b).withInputs l := by
  cases target with
  | low dst => cases dst <;> rfl
  | high | nowhere => rfl

theorem Machine.State.bracketWrites_withInputs :
    (s.withInputs l).bracketWrites = s.bracketWrites.withInputs l := by
  simp only [State.bracketWrites, State.withInputs_cur, State.withInputs_upc]
  split <;> rfl

theorem Machine.State.complete_withInputs : (s.withInputs l).complete = s.complete.withInputs l := by
  simp only [State.complete, State.bracketWrites_withInputs, State.withInputs_busy, State.withInputs_cur,
    State.withInputs_upc]
  (repeat' split) <;> rfl

end

theorem ignoresInputs_request (e : State → Event) (he : ∀ s l, e (s.withInputs l) = e s) :
    IgnoresInputs fun s => request (e s) s := by
  intro s l
  simp only [request, State.hangs_withInputs, State.answered_withInputs, he]
  cases s.hangs <;> rfl

theorem ignoresInputs_rxOp (target : RxTarget) : IgnoresInputs (rxOp target) := by
  intro s l
  simp only [rxOp, request, State.hangs_withInputs, State.answered_withInputs, State.answer_withInputs,
    State.withInputs_par]
  cases s.hangs
  · exact congrArg some (State.receive_withInputs (s.answered.emit _) l target _)
  · rfl

theorem ignoresInputs_auxonOp : IgnoresInputs auxonOp := fun _ _ => rfl

/-- As a step, such a micro-operation does the same beside any list of inputs. -/
theorem IgnoresInputs.perform {m : State → Option State} (h : IgnoresInputs m) (s : State)
    (l : List HostInput) : (s.withInputs l).perform m = (s.perform m).withInputs l := by
  rw [State.perform, State.perform, h s l]
  cases m s with
  | none => rfl
  | some t => exact t.complete_withInputs l

/-- Every micro-operation of a micro-program does the same beside any list of inputs (R125). -/
theorem exec_withInputs {p : Params} {cur : BitVec 3} {upc : BitVec 6} {i : Instr} {s t : State}
    (hi : microOp p cur upc = some i) (h : exec i s = .next t) (l : List HostInput) :
    exec i (s.withInputs l) = .next (t.withInputs l) := by
  have hperform {m : State → Option State} (hm : IgnoresInputs m)
      (ht : (.next (s.perform m) : Host.Outcome State Fault Refusal) = .next t) :
      (.next ((s.withInputs l).perform m) : Host.Outcome State Fault Refusal) = .next (t.withInputs l) := by
    rw [hm.perform, Host.Outcome.next.inj ht]
  have hcomplete {u : State} (ht : (.next u.complete : Host.Outcome State Fault Refusal) = .next t) :
      (.next (u.withInputs l).complete : Host.Outcome State Fault Refusal) = .next (t.withInputs l) := by
    rw [State.complete_withInputs, Host.Outcome.next.inj ht]
  rcases microOp_cases hi with rfl | rfl | rfl | rfl | rfl | ⟨b, rfl⟩ | ⟨n, rfl⟩ | ⟨unit, k, rfl⟩ |
    ⟨unit, rfl⟩ | ⟨unit, rfl⟩ | ⟨u, rfl⟩
  · exact hperform (ignoresInputs_request (fun _ => .cfg) fun _ _ => rfl) h
  · exact hperform ignoresInputs_auxonOp h
  · exact hperform (ignoresInputs_request (fun _ => .mode .a) fun _ _ => rfl) h
  · exact hperform (ignoresInputs_request (fun _ => .mode .b) fun _ _ => rfl) h
  · exact hperform (ignoresInputs_rxOp s.rxTarget) h
  · exact hperform (ignoresInputs_request (fun u => .xfer b u.answer) fun _ _ => rfl) h
  · exact hperform (ignoresInputs_request (fun _ => .wait n) fun _ _ => rfl) h
  · cases hl : s.lc with
    | uninitialized =>
      rw [exec_chk_of_uninitialized hl] at h
      rw [exec_chk_of_uninitialized (s := s.withInputs l) hl, ← Host.Outcome.next.inj h]
      rfl
    | ready =>
      rw [exec_chk_of_ready hl] at h
      rw [exec_chk_of_ready (s := s.withInputs l) hl]
      exact hcomplete h
  · exact hcomplete h
  · exact hcomplete h
  · rw [exec_cmpp] at h ⊢
    exact hcomplete h

end Sys2Proof

namespace Sys2Proof.Proofs

open Sys2Proof.Machine Sys2Proof.Claim

/-- Settles O7: hardware reset first, then the micro-operation at the control state, then a command word presented. -/
theorem stepRunsTheDecodedInstruction : Obligations.StepRunsTheDecodedInstruction := by
  refine fun s rest => ⟨step_of_reset, fun i hb hd => ⟨fun h => ?_, fun h => ?_, fun w h => ?_⟩,
    fun w i hb h hd => ?_, fun hb h => ?_, fun hb h => ?_⟩
  · rw [step_of_decode hb (by simp [h]) hd, State.consumeInput_nil h]
  · rw [step_of_decode hb (by simp [h]) hd, State.consumeInput_idle h]
  · rw [step_of_decode hb (by simp [h]) hd, State.consumeInput_command hb h]
  · obtain rfl : decodeH w = i := Except.ok.inj hd
    exact (step_of_command h hb).trans (exec_decodeH_idle (s := { s with inputs := rest }) w hb).symm
  · rw [step_of_idle (by simp [h]) (by simp [h]) hb, State.consumeInput_nil h]
  · rw [step_of_idle (by simp [h]) (by simp [h]) hb, State.consumeInput_idle h]

/-- Settles O8: the five command forms are what the eight command words decode to, and each is accepted by an idle
block only. -/
theorem commandAcceptance : Obligations.CommandAcceptance := by
  intro s unit i cmd hmem
  have hdecode : i = decodeH cmd := by
    simp only [List.mem_cons, Prod.mk.injEq, List.not_mem_nil, or_false] at hmem
    rcases hmem with ⟨rfl, rfl⟩ | ⟨rfl, rfl⟩ | ⟨rfl, rfl⟩ | ⟨rfl, rfl⟩ | ⟨rfl, rfl⟩ <;> cases unit <;> rfl
  rw [hdecode]
  exact ⟨exec_decodeH_idle cmd, fun hb => by rw [exec_decodeH, State.accept_busy cmd hb]⟩

/-- Settles O9: both blocks execute the same micro-operation, which ignores what the host presents. -/
theorem busyBlockIgnoresTheHostPort : Obligations.BusyBlockIgnoresTheHostPort := by
  intro s t w rest hb hstep
  rw [step_of_busy (by simp) (by exact hb), State.consumeInput_nil rfl] at hstep
  rw [step_of_busy (by simp) (by exact hb), State.consumeInput_command (by exact hb) rfl]
  cases hm : microOp s.par s.cur s.upc with
  | none => simp [hm] at hstep
  | some i =>
    simp only [hm] at hstep ⊢
    exact exec_withInputs hm hstep (.command w :: rest)

/-- Settles O11: each command word selects its micro-program, whose table is written out. -/
theorem microProgramTables : Obligations.MicroProgramTables := by
  intro p unit reset rdcal acq
  have hsreset := congrArg (List.map Slot.instr) (program_sreset (p := p) (cmdOp_command unit .sreset))
  have hinit := congrArg (List.map Slot.instr) (program_init (p := p) (cmdOp_command unit .init))
  have hgett := congrArg (List.map Slot.instr) (program_gett (p := p) (cmdOp_command unit .gett))
  have hgetp := congrArg (List.map Slot.instr) (program_getp (p := p) (cmdOp_command unit .getp))
  rw [cmdUnit_command] at hinit hgett hgetp
  exact ⟨hsreset, hinit, hgett, hgetp⟩

/-- Settles O19: the check ends no command and stands at no bracketed index, so its completion only counts on. -/
theorem checkPassesInReady : Obligations.CheckPassesInReady := by
  intro s unit k h hl
  obtain ⟨hlast, hbracket⟩ := place_inner (h.place rfl) (by decide)
  rw [exec_chk_of_ready hl, State.complete_inner h.1 hlast hbracket]

end Sys2Proof.Proofs

/-! A request that is not completed (R136), and the hardware reset that ends it (R133, R145). -/

namespace Sys2Proof

open Sys2Proof.Machine Sys2Proof.Claim

section
variable {s : State} {i : Instr} {rest : List Reply}

theorem Machine.State.perform_none {m : State → Option State} (h : m s = none) : s.perform m = s := by
  rw [State.perform, h]

/-- Whatever a port request would write or emit waits for its completion (R118, R136). -/
theorem exec_of_hangs (hp : isPortRequest i = true) (hh : s.hangs = true) : exec i s = .next s := by
  have hrequest (e : Event) : request e s = none := (request_eq_none e).mpr hh
  have hperform {m : State → Option State} (hm : m s = none) :
      (.next (s.perform m) : Host.Outcome State Fault Refusal) = .next s :=
    congrArg Host.Outcome.next (State.perform_none hm)
  cases i with
  | cfg => exact hperform (m := cfgOp) (hrequest .cfg)
  | modeA => exact hperform (m := modeOp .a) (hrequest (.mode .a))
  | modeB => exact hperform (m := modeOp .b) (hrequest (.mode .b))
  | tx b => exact hperform (m := txOp b) (hrequest (.xfer b s.answer))
  | rx => exact hperform ((rxOp_eq_none s.rxTarget).mpr hh)
  | wait n => exact hperform (m := waitOp n) (hrequest (.wait n))
  | _ => cases hp

theorem Machine.State.hangs_consumeInput : s.consumeInput.hangs = s.hangs := by
  simp only [State.hangs, State.consumeInput_replies]

/-- While a request is outstanding, a step uses up the host's input at most (R136, log 4). -/
theorem step_of_outstanding (h : s.outstanding = true) (hr : s.inputs.head? ≠ some .reset) :
    step s = .next s.consumeInput := by
  obtain ⟨hb, hh, i, hi, hp⟩ := s.outstanding_iff.mp h
  rw [step_of_busy hr hb, hi]
  exact exec_of_hangs hp (State.hangs_consumeInput.trans hh)

/-- A request at the control state that the next answer does not complete is outstanding (log 14). -/
theorem Claim.StandsAt.outstanding (h : StandsAt s i) (hp : isPortRequest i = true)
    (hn : s.replies = .never :: rest) : s.outstanding = true :=
  s.outstanding_iff.mpr ⟨h.1, State.hangs_never hn, i, h.2, hp⟩

theorem Machine.State.repliesAfterReset_outstanding (h : s.outstanding = true) :
    s.repliesAfterReset = s.replies.tail := if_pos h

end

end Sys2Proof

namespace Sys2Proof.Proofs

open Sys2Proof.Machine Sys2Proof.Claim

/-- Settles O18: a step of the waiting block uses up the host's input at most, and neither an empty list nor a command
presented to a busy block is used up; a hardware reset drops the request with its missing answer. -/
theorem unansweredRequestIsStuck : Obligations.UnansweredRequestIsStuck := by
  intro s i rest h hp hn
  have hout (l : List HostInput) : (s.withInputs l).outstanding = true :=
    StandsAt.outstanding (s := s.withInputs l) h hp hn
  refine ⟨exec_of_hangs hp (State.hangs_never hn), run_of_stuck ?_, fun n w => run_of_stuck ?_ n,
    (s.withInputs []).hardwareReset, step_of_reset rfl, rfl, ?_⟩
  · exact (step_of_outstanding (hout []) (by simp [State.withInputs])).trans
      (congrArg _ (State.consumeInput_nil rfl))
  · exact (step_of_outstanding (hout [.command w]) (by simp [State.withInputs])).trans
      (congrArg _ (State.consumeInput_command h.1 rfl))
  · calc (s.withInputs []).repliesAfterReset
      _ = s.replies.tail := State.repliesAfterReset_outstanding (hout [])
      _ = rest := by rw [hn, List.tail_cons]

/-- Settles O20: in `Uninitialized` the check is the error entry. -/
theorem checkRaisesUninit : Obligations.CheckRaisesUninit :=
  fun _ unit k hl => exec_chk_of_uninitialized hl unit k

/-- Settles O44: the reset is looked at before the control state and the host's command, so `BUSY` plays no part. -/
theorem hardwareResetWins : Obligations.HardwareResetWins :=
  fun s rest h => ⟨{ s with inputs := rest }.hardwareReset, step_of_reset h, rfl, rfl, rfl, rfl, rfl⟩

end Sys2Proof.Proofs

/-! What `RST` resets and what it leaves (R144, R146). -/

namespace Sys2Proof

open Sys2Proof.Machine Sys2Proof.Claim

section
variable {s : State}

/-- A request is outstanding exactly where the block stands at a port request that the next answer does not
complete (R136, log 14). -/
theorem Machine.State.outstanding_iff_standsAt :
    s.outstanding = true ↔ ∃ i rest, StandsAt s i ∧ isPortRequest i = true ∧ s.replies = .never :: rest := by
  constructor
  · intro h
    obtain ⟨hbusy, hhangs, i, hi, hport⟩ := s.outstanding_iff.mp h
    obtain ⟨rest, hreplies⟩ := List.head?_eq_some_iff.mp (s.hangs_iff.mp hhangs)
    exact ⟨i, rest, ⟨hbusy, hi⟩, hport, hreplies⟩
  · rintro ⟨i, rest, hstands, hport, hreplies⟩
    exact hstands.outstanding hport hreplies

theorem Machine.State.repliesAfterReset_not_outstanding (h : ¬ s.outstanding = true) :
    s.repliesAfterReset = s.replies := if_neg h

end

end Sys2Proof

namespace Sys2Proof.Proofs

open Sys2Proof.Machine Sys2Proof.Claim

/-- Settles O42: the reset state starts from `State.initial` at the block's own parameters, whatever the state was. -/
theorem hardwareReset : Obligations.HardwareReset :=
  fun s => ⟨s.hardwareReset, rfl, rfl, rfl, rfl, rfl, rfl, rfl, rfl⟩

/-- Settles O43: the two clauses on the answers are those of `State.repliesAfterReset`, an outstanding request or
none. -/
theorem hardwareResetLeavesTheOutside : Obligations.HardwareResetLeavesTheOutside := by
  refine fun s => ⟨s.hardwareReset, rfl, rfl, rfl, fun i rest hstands hport hreplies => ?_, fun hnone => ?_⟩
  · calc s.repliesAfterReset
      _ = s.replies.tail := State.repliesAfterReset_outstanding (hstands.outstanding hport hreplies)
      _ = rest := by rw [hreplies, List.tail_cons]
  · exact State.repliesAfterReset_not_outstanding (mt State.outstanding_iff_standsAt.mp hnone)

end Sys2Proof.Proofs
